-- ==== Sys2Proof/Word.lean ====
section
/-! DEFINITION. The two word types of the core: every value is 8 or 16 bits wide (00_scope.md R7,
10_state.md R10, R12, R13). Addition and subtraction on them wrap, which is the spec's `-8`, `+16` and `-16` (R7). -/

namespace Sys2Proof

/-- An 8-bit value: a general register, an opcode byte, a byte of memory (`XLEN8` = 8, R5). -/
abbrev Byte := BitVec 8

/-- A 16-bit value: PC, SP, a register pair, a bus address, a latched operand (`ALEN` = 16, R5). -/
abbrev Word := BitVec 16

end Sys2Proof
end

