-- ==== Sys2Proof/Config.lean ====
section
/-! DEFINITION. What is fixed for a machine: the closed enumerations an instruction descriptor is made of
(30_encoding.md R60, R61; 10_state.md R23, R24), the numeric parameters (00_scope.md R5), the region classes
(20_memory.md R43), and the free launch contents of memory (70_reset_and_hazards.md R183). -/

namespace Sys2Proof

/-- The seven 8-bit registers an instruction of the default table can name as an operand, in the order of their
codes in R62 (B C D E H L A). `F` is named by no row of R63. -/
inductive GReg where
  | b | c | d | e | h | l | a
deriving DecidableEq, Repr

/-- The four 16-bit destinations `rr` of `LD rr,d16` (43_ld.md R133), in the order of their codes in R62. -/
inductive PairReg where
  | bc | de | hl | sp
deriving DecidableEq, Repr

/-- The register names a descriptor may hold: fourteen real names and `NONE` (10_state.md R24). -/
inductive RegName where
  | a | f | b | c | d | e | h | l
  | af | bc | de | hl | sp | pc
  | noReg
deriving DecidableEq, Repr

/-- The branch conditions, a closed set of five (10_state.md R23). -/
inductive Cond where
  | always | nz | z | nc | c
deriving DecidableEq, Repr

/-- The eleven addressing modes, `AM_IMP` to `AM_HL_SPR` in the order of 30_encoding.md R61. -/
inductive Mode where
  | imp | r | rR | rD8 | rD16 | d16 | mrR | hliR | hldR | rel8 | hlSpr
deriving DecidableEq, Repr

/-- The instruction kinds of 30_encoding.md R60. `other` stands for "any other kind an extended table might carry"
(40_engine.md R97); no row of the default table has it (assumption 10). -/
inductive Kind where
  | nop | dec | xor | ld | jp | invalid
  | other (code : Nat)
deriving DecidableEq, Repr

/-- An instruction descriptor, with the fields of 30_encoding.md R60. `param`, "an optional immediate parameter", is
absent in every descriptor of the default table (assumption 19). -/
structure Descriptor where
  kind : Kind
  mnemonic : String
  mode : Mode
  reg1 : RegName
  reg2 : RegName
  cond : Option Cond
  param : Option Nat
deriving DecidableEq, Repr

/-- The descriptor of every unpopulated opcode value (30_encoding.md R64). -/
def Descriptor.invalid : Descriptor := ⟨.invalid, "INVALID", .imp, .noReg, .noReg, none, none⟩

/-- The three region classes of the address space (20_memory.md R43). -/
inductive Region where
  | rom | ram | unmapped
deriving DecidableEq, Repr

/-- The numeric parameters of 00_scope.md R5 (assumption 3). `romSize` is the length of the ROM image. -/
structure Config where
  romLimit : Nat
  ramBase : Nat
  ramLimit : Nat
  romSize : Nat
  entryPc : Word
  countCycles : Bool
deriving DecidableEq, Repr

/-- The defaults of 00_scope.md R5, with the image length of the spec's test configuration `CFG`
(95_test_vectors.md; assumption 14). -/
def Config.default : Config := ⟨0x8000, 0xC000, 0xE000, 0x8000, 0x0100, false⟩

/-- The constraint R5 puts on the region boundaries. -/
def Config.wf (c : Config) : Bool :=
  decide (c.romLimit ≤ c.ramBase) && decide (c.ramBase ≤ c.ramLimit) && decide (c.ramLimit ≤ 0x10000)

/-- FREE VALUE (assumption 2): the byte at address `a` when the run starts, where the launch does not place one. For
an address of the writable window it is `ram0[a]`, "of which a program may assume nothing" (R183, D12), for a ROM
address `rom[a]`, the collaborator's image (R5). It has no body to compute with: a claim holds for every launch content. -/
opaque Config.launchByte : Nat → Byte

end Sys2Proof
end

