-- ==== Sys2Proof/Syntax.lean ====
section
/-! DEFINITION. The instructions: one constructor for each mnemonic of spec/opcode_table.json, operands as fields.
The 164 INVALID rows of the table share one mnemonic and one constructor, which carries the opcode byte
(assumption 20). -/

namespace Sys2Proof

/-- The 92 populated rows of 30_encoding.md R63 and the INVALID descriptor of R64. -/
inductive Instr where
  /-- `NOP`, opcode 0x00 (R110). -/
  | nop
  /-- `DEC B`, opcode 0x05 (R120). -/
  | decB
  /-- `DEC C`, opcode 0x0D (R120). -/
  | decC
  /-- `DEC D`, opcode 0x15 (R120). -/
  | decD
  /-- `DEC E`, opcode 0x1D (R120). -/
  | decE
  /-- `DEC H`, opcode 0x25 (R120). -/
  | decH
  /-- `DEC L`, opcode 0x2D (R120). -/
  | decL
  /-- `DEC A`, opcode 0x3D (R120). -/
  | decA
  /-- `XOR A,B`, opcode 0xA8 (R121). -/
  | xorB
  /-- `XOR A,C`, opcode 0xA9 (R121). -/
  | xorC
  /-- `XOR A,D`, opcode 0xAA (R121). -/
  | xorD
  /-- `XOR A,E`, opcode 0xAB (R121). -/
  | xorE
  /-- `XOR A,H`, opcode 0xAC (R121). -/
  | xorH
  /-- `XOR A,L`, opcode 0xAD (R121). -/
  | xorL
  /-- `XOR A,A`, opcode 0xAF (R121). -/
  | xorA
  /-- `LD BC,d16`, opcode 0x01 (R133). -/
  | ldBcD16 (d16 : Word)
  /-- `LD (BC),A`, opcode 0x02 (R135). -/
  | ldIndBcA
  /-- `LD B,d8`, opcode 0x06 (R132). -/
  | ldBD8 (d8 : Byte)
  /-- `LD C,d8`, opcode 0x0E (R132). -/
  | ldCD8 (d8 : Byte)
  /-- `LD DE,d16`, opcode 0x11 (R133). -/
  | ldDeD16 (d16 : Word)
  /-- `LD (DE),A`, opcode 0x12 (R136). -/
  | ldIndDeA
  /-- `LD D,d8`, opcode 0x16 (R132). -/
  | ldDD8 (d8 : Byte)
  /-- `LD E,d8`, opcode 0x1E (R132). -/
  | ldED8 (d8 : Byte)
  /-- `LD HL,d16`, opcode 0x21 (R133). -/
  | ldHlD16 (d16 : Word)
  /-- `LD (HL+),A`, opcode 0x22 (R137). -/
  | ldHliA
  /-- `LD H,d8`, opcode 0x26 (R132). -/
  | ldHD8 (d8 : Byte)
  /-- `LD L,d8`, opcode 0x2E (R132). -/
  | ldLD8 (d8 : Byte)
  /-- `LD SP,d16`, opcode 0x31 (R133). -/
  | ldSpD16 (d16 : Word)
  /-- `LD (HL-),A`, opcode 0x32 (R138). -/
  | ldHldA
  /-- `LD A,d8`, opcode 0x3E (R132). -/
  | ldAD8 (d8 : Byte)
  /-- `LD B,B`, opcode 0x40 (R131). -/
  | ldBB
  /-- `LD B,C`, opcode 0x41 (R131). -/
  | ldBC
  /-- `LD B,D`, opcode 0x42 (R131). -/
  | ldBD
  /-- `LD B,E`, opcode 0x43 (R131). -/
  | ldBE
  /-- `LD B,H`, opcode 0x44 (R131). -/
  | ldBH
  /-- `LD B,L`, opcode 0x45 (R131). -/
  | ldBL
  /-- `LD B,A`, opcode 0x47 (R131). -/
  | ldBA
  /-- `LD C,B`, opcode 0x48 (R131). -/
  | ldCB
  /-- `LD C,C`, opcode 0x49 (R131). -/
  | ldCC
  /-- `LD C,D`, opcode 0x4A (R131). -/
  | ldCD
  /-- `LD C,E`, opcode 0x4B (R131). -/
  | ldCE
  /-- `LD C,H`, opcode 0x4C (R131). -/
  | ldCH
  /-- `LD C,L`, opcode 0x4D (R131). -/
  | ldCL
  /-- `LD C,A`, opcode 0x4F (R131). -/
  | ldCA
  /-- `LD D,B`, opcode 0x50 (R131). -/
  | ldDB
  /-- `LD D,C`, opcode 0x51 (R131). -/
  | ldDC
  /-- `LD D,D`, opcode 0x52 (R131). -/
  | ldDD
  /-- `LD D,E`, opcode 0x53 (R131). -/
  | ldDE
  /-- `LD D,H`, opcode 0x54 (R131). -/
  | ldDH
  /-- `LD D,L`, opcode 0x55 (R131). -/
  | ldDL
  /-- `LD D,A`, opcode 0x57 (R131). -/
  | ldDA
  /-- `LD E,B`, opcode 0x58 (R131). -/
  | ldEB
  /-- `LD E,C`, opcode 0x59 (R131). -/
  | ldEC
  /-- `LD E,D`, opcode 0x5A (R131). -/
  | ldED
  /-- `LD E,E`, opcode 0x5B (R131). -/
  | ldEE
  /-- `LD E,H`, opcode 0x5C (R131). -/
  | ldEH
  /-- `LD E,L`, opcode 0x5D (R131). -/
  | ldEL
  /-- `LD E,A`, opcode 0x5F (R131). -/
  | ldEA
  /-- `LD H,B`, opcode 0x60 (R131). -/
  | ldHB
  /-- `LD H,C`, opcode 0x61 (R131). -/
  | ldHC
  /-- `LD H,D`, opcode 0x62 (R131). -/
  | ldHD
  /-- `LD H,E`, opcode 0x63 (R131). -/
  | ldHE
  /-- `LD H,H`, opcode 0x64 (R131). -/
  | ldHH
  /-- `LD H,L`, opcode 0x65 (R131). -/
  | ldHL
  /-- `LD H,A`, opcode 0x67 (R131). -/
  | ldHA
  /-- `LD L,B`, opcode 0x68 (R131). -/
  | ldLB
  /-- `LD L,C`, opcode 0x69 (R131). -/
  | ldLC
  /-- `LD L,D`, opcode 0x6A (R131). -/
  | ldLD
  /-- `LD L,E`, opcode 0x6B (R131). -/
  | ldLE
  /-- `LD L,H`, opcode 0x6C (R131). -/
  | ldLH
  /-- `LD L,L`, opcode 0x6D (R131). -/
  | ldLL
  /-- `LD L,A`, opcode 0x6F (R131). -/
  | ldLA
  /-- `LD (HL),B`, opcode 0x70 (R134). -/
  | ldIndHlB
  /-- `LD (HL),C`, opcode 0x71 (R134). -/
  | ldIndHlC
  /-- `LD (HL),D`, opcode 0x72 (R134). -/
  | ldIndHlD
  /-- `LD (HL),E`, opcode 0x73 (R134). -/
  | ldIndHlE
  /-- `LD (HL),H`, opcode 0x74 (R134). -/
  | ldIndHlH
  /-- `LD (HL),L`, opcode 0x75 (R134). -/
  | ldIndHlL
  /-- `LD (HL),A`, opcode 0x77 (R134). -/
  | ldIndHlA
  /-- `LD A,B`, opcode 0x78 (R131). -/
  | ldAB
  /-- `LD A,C`, opcode 0x79 (R131). -/
  | ldAC
  /-- `LD A,D`, opcode 0x7A (R131). -/
  | ldAD
  /-- `LD A,E`, opcode 0x7B (R131). -/
  | ldAE
  /-- `LD A,H`, opcode 0x7C (R131). -/
  | ldAH
  /-- `LD A,L`, opcode 0x7D (R131). -/
  | ldAL
  /-- `LD A,A`, opcode 0x7F (R131). -/
  | ldAA
  /-- `LD HL,SP+e8`, opcode 0xF8 (R139). -/
  | ldHlSpE8 (e8 : Byte)
  /-- `JR NZ,e8`, opcode 0x20 (R151). -/
  | jrNz (e8 : Byte)
  /-- `JR Z,e8`, opcode 0x28 (R151). -/
  | jrZ (e8 : Byte)
  /-- `JR NC,e8`, opcode 0x30 (R151). -/
  | jrNc (e8 : Byte)
  /-- `JR C,e8`, opcode 0x38 (R151). -/
  | jrC (e8 : Byte)
  /-- `JP a16`, opcode 0xC3 (R150). -/
  | jpA16 (a16 : Word)
  /-- Any of the 164 opcode values of R64, by its byte (R111). -/
  | invalid (op : Byte)
deriving DecidableEq, Repr

/-- `DEC r`, by its register (R120). -/
def Instr.decOf : GReg → Instr
  | .b => .decB
  | .c => .decC
  | .d => .decD
  | .e => .decE
  | .h => .decH
  | .l => .decL
  | .a => .decA

/-- `XOR A,r`, by its register (R121). -/
def Instr.xorOf : GReg → Instr
  | .b => .xorB
  | .c => .xorC
  | .d => .xorD
  | .e => .xorE
  | .h => .xorH
  | .l => .xorL
  | .a => .xorA

/-- `LD r,r'`, by destination and source (R131). -/
def Instr.ldOf : GReg → GReg → Instr
  | .b, .b => .ldBB
  | .b, .c => .ldBC
  | .b, .d => .ldBD
  | .b, .e => .ldBE
  | .b, .h => .ldBH
  | .b, .l => .ldBL
  | .b, .a => .ldBA
  | .c, .b => .ldCB
  | .c, .c => .ldCC
  | .c, .d => .ldCD
  | .c, .e => .ldCE
  | .c, .h => .ldCH
  | .c, .l => .ldCL
  | .c, .a => .ldCA
  | .d, .b => .ldDB
  | .d, .c => .ldDC
  | .d, .d => .ldDD
  | .d, .e => .ldDE
  | .d, .h => .ldDH
  | .d, .l => .ldDL
  | .d, .a => .ldDA
  | .e, .b => .ldEB
  | .e, .c => .ldEC
  | .e, .d => .ldED
  | .e, .e => .ldEE
  | .e, .h => .ldEH
  | .e, .l => .ldEL
  | .e, .a => .ldEA
  | .h, .b => .ldHB
  | .h, .c => .ldHC
  | .h, .d => .ldHD
  | .h, .e => .ldHE
  | .h, .h => .ldHH
  | .h, .l => .ldHL
  | .h, .a => .ldHA
  | .l, .b => .ldLB
  | .l, .c => .ldLC
  | .l, .d => .ldLD
  | .l, .e => .ldLE
  | .l, .h => .ldLH
  | .l, .l => .ldLL
  | .l, .a => .ldLA
  | .a, .b => .ldAB
  | .a, .c => .ldAC
  | .a, .d => .ldAD
  | .a, .e => .ldAE
  | .a, .h => .ldAH
  | .a, .l => .ldAL
  | .a, .a => .ldAA

/-- `LD r,d8`, by its destination (R132). -/
def Instr.ldImmOf : GReg → Byte → Instr
  | .b => .ldBD8
  | .c => .ldCD8
  | .d => .ldDD8
  | .e => .ldED8
  | .h => .ldHD8
  | .l => .ldLD8
  | .a => .ldAD8

/-- `LD rr,d16`, by its destination (R133). -/
def Instr.ldPairOf : PairReg → Word → Instr
  | .bc => .ldBcD16
  | .de => .ldDeD16
  | .hl => .ldHlD16
  | .sp => .ldSpD16

/-- `LD (HL),r`, by its source (R134). -/
def Instr.ldIndHlOf : GReg → Instr
  | .b => .ldIndHlB
  | .c => .ldIndHlC
  | .d => .ldIndHlD
  | .e => .ldIndHlE
  | .h => .ldIndHlH
  | .l => .ldIndHlL
  | .a => .ldIndHlA

end Sys2Proof
end

