-- ==== Sys2Proof/WellFormed.lean ====
section
/-! DEFINITION. Which terms of `Instr` are instructions. Operands are bit vectors of the encoding's own width (R66), so
the one check is that `invalid op` carries one of the 164 opcode values that hold the INVALID descriptor (R64). -/

namespace Sys2Proof

/-- The opcode values of 30_encoding.md R64, as the inclusive ranges the rule lists. -/
def invalidRanges : List (Nat × Nat) :=
  [(0x03, 0x04), (0x07, 0x0C), (0x0F, 0x10), (0x13, 0x14), (0x17, 0x1C), (0x1F, 0x1F)] ++
  [(0x23, 0x24), (0x27, 0x27), (0x29, 0x2C), (0x2F, 0x2F), (0x33, 0x37), (0x39, 0x3C)] ++
  [(0x3F, 0x3F), (0x46, 0x46), (0x4E, 0x4E), (0x56, 0x56), (0x5E, 0x5E), (0x66, 0x66)] ++
  [(0x6E, 0x6E), (0x76, 0x76), (0x7E, 0x7E), (0x80, 0xA7), (0xAE, 0xAE), (0xB0, 0xC2)] ++
  [(0xC4, 0xF7), (0xF9, 0xFF)]

/-- `op` is one of the 164 INVALID opcode values (R64). -/
def isInvalidOpcode (op : Byte) : Bool :=
  invalidRanges.any fun r => decide (r.1 ≤ op.toNat) && decide (op.toNat ≤ r.2)

/-- The well-formedness check: an `invalid` term names an INVALID opcode value; every other term is an instruction. -/
def Instr.wf : Instr → Bool
  | .invalid op => isInvalidOpcode op
  | _ => true

end Sys2Proof
end

