-- ==== Sys2Proof/Decode.lean ====
section
/-! DEFINITION. The Instruction Table of 30_encoding.md R63, the decoder from bytes to `Instr` (total, rejecting by name)
and the encoder. Opcode values marked `G` in R63 are the spec's own import from the canonical map (assumption 13). -/

namespace Sys2Proof

/-- `hi:lo`, the concatenation of two bytes with `hi` in the high byte (00_scope.md R6, 20_memory.md R46). -/
def wordOf (hi lo : Byte) : Word := hi ++ lo

/-- `v[15:8]`. -/
def hiByte (v : Word) : Byte := v.extractLsb' 8 8

/-- `v[7:0]`. -/
def loByte (v : Word) : Byte := v.extractLsb' 0 8

/-- `zext16(v)` (R7). -/
def zext16 (v : Byte) : Word := v.setWidth 16

/-- `sext16(v)`: the 8-bit value as a 16-bit two's-complement value (R7). -/
def sext16 (v : Byte) : Word := v.signExtend 16

/-- The 92 populated rows of R63: for the opcode value, its descriptor and its instruction, as a function of the bytes `b1`
and `b2` that follow the opcode (as many of them as the format has; a 16-bit operand is `b2:b1`, R65). -/
def tableRow (op : Byte) : Option (Descriptor × (Byte → Byte → Instr)) :=
  match op.toNat with
  | 0x00 => some (⟨.nop, "NOP", .imp, .noReg, .noReg, none, none⟩, fun _ _ => .nop)
  | 0x01 => some (⟨.ld, "LD BC,d16", .rD16, .bc, .noReg, none, none⟩, fun b1 b2 => .ldBcD16 (wordOf b2 b1))
  | 0x02 => some (⟨.ld, "LD (BC),A", .mrR, .bc, .a, none, none⟩, fun _ _ => .ldIndBcA)
  | 0x05 => some (⟨.dec, "DEC B", .r, .b, .noReg, none, none⟩, fun _ _ => .decB)
  | 0x06 => some (⟨.ld, "LD B,d8", .rD8, .b, .noReg, none, none⟩, fun b1 _ => .ldBD8 b1)
  | 0x0D => some (⟨.dec, "DEC C", .r, .c, .noReg, none, none⟩, fun _ _ => .decC)
  | 0x0E => some (⟨.ld, "LD C,d8", .rD8, .c, .noReg, none, none⟩, fun b1 _ => .ldCD8 b1)
  | 0x11 => some (⟨.ld, "LD DE,d16", .rD16, .de, .noReg, none, none⟩, fun b1 b2 => .ldDeD16 (wordOf b2 b1))
  | 0x12 => some (⟨.ld, "LD (DE),A", .mrR, .de, .a, none, none⟩, fun _ _ => .ldIndDeA)
  | 0x15 => some (⟨.dec, "DEC D", .r, .d, .noReg, none, none⟩, fun _ _ => .decD)
  | 0x16 => some (⟨.ld, "LD D,d8", .rD8, .d, .noReg, none, none⟩, fun b1 _ => .ldDD8 b1)
  | 0x1D => some (⟨.dec, "DEC E", .r, .e, .noReg, none, none⟩, fun _ _ => .decE)
  | 0x1E => some (⟨.ld, "LD E,d8", .rD8, .e, .noReg, none, none⟩, fun b1 _ => .ldED8 b1)
  | 0x20 => some (⟨.jp, "JR NZ,e8", .rel8, .noReg, .noReg, (some .nz), none⟩, fun b1 _ => .jrNz b1)
  | 0x21 => some (⟨.ld, "LD HL,d16", .rD16, .hl, .noReg, none, none⟩, fun b1 b2 => .ldHlD16 (wordOf b2 b1))
  | 0x22 => some (⟨.ld, "LD (HL+),A", .hliR, .hl, .a, none, none⟩, fun _ _ => .ldHliA)
  | 0x25 => some (⟨.dec, "DEC H", .r, .h, .noReg, none, none⟩, fun _ _ => .decH)
  | 0x26 => some (⟨.ld, "LD H,d8", .rD8, .h, .noReg, none, none⟩, fun b1 _ => .ldHD8 b1)
  | 0x28 => some (⟨.jp, "JR Z,e8", .rel8, .noReg, .noReg, (some .z), none⟩, fun b1 _ => .jrZ b1)
  | 0x2D => some (⟨.dec, "DEC L", .r, .l, .noReg, none, none⟩, fun _ _ => .decL)
  | 0x2E => some (⟨.ld, "LD L,d8", .rD8, .l, .noReg, none, none⟩, fun b1 _ => .ldLD8 b1)
  | 0x30 => some (⟨.jp, "JR NC,e8", .rel8, .noReg, .noReg, (some .nc), none⟩, fun b1 _ => .jrNc b1)
  | 0x31 => some (⟨.ld, "LD SP,d16", .rD16, .sp, .noReg, none, none⟩, fun b1 b2 => .ldSpD16 (wordOf b2 b1))
  | 0x32 => some (⟨.ld, "LD (HL-),A", .hldR, .hl, .a, none, none⟩, fun _ _ => .ldHldA)
  | 0x38 => some (⟨.jp, "JR C,e8", .rel8, .noReg, .noReg, (some .c), none⟩, fun b1 _ => .jrC b1)
  | 0x3D => some (⟨.dec, "DEC A", .r, .a, .noReg, none, none⟩, fun _ _ => .decA)
  | 0x3E => some (⟨.ld, "LD A,d8", .rD8, .a, .noReg, none, none⟩, fun b1 _ => .ldAD8 b1)
  | 0x40 => some (⟨.ld, "LD B,B", .rR, .b, .b, none, none⟩, fun _ _ => .ldBB)
  | 0x41 => some (⟨.ld, "LD B,C", .rR, .b, .c, none, none⟩, fun _ _ => .ldBC)
  | 0x42 => some (⟨.ld, "LD B,D", .rR, .b, .d, none, none⟩, fun _ _ => .ldBD)
  | 0x43 => some (⟨.ld, "LD B,E", .rR, .b, .e, none, none⟩, fun _ _ => .ldBE)
  | 0x44 => some (⟨.ld, "LD B,H", .rR, .b, .h, none, none⟩, fun _ _ => .ldBH)
  | 0x45 => some (⟨.ld, "LD B,L", .rR, .b, .l, none, none⟩, fun _ _ => .ldBL)
  | 0x47 => some (⟨.ld, "LD B,A", .rR, .b, .a, none, none⟩, fun _ _ => .ldBA)
  | 0x48 => some (⟨.ld, "LD C,B", .rR, .c, .b, none, none⟩, fun _ _ => .ldCB)
  | 0x49 => some (⟨.ld, "LD C,C", .rR, .c, .c, none, none⟩, fun _ _ => .ldCC)
  | 0x4A => some (⟨.ld, "LD C,D", .rR, .c, .d, none, none⟩, fun _ _ => .ldCD)
  | 0x4B => some (⟨.ld, "LD C,E", .rR, .c, .e, none, none⟩, fun _ _ => .ldCE)
  | 0x4C => some (⟨.ld, "LD C,H", .rR, .c, .h, none, none⟩, fun _ _ => .ldCH)
  | 0x4D => some (⟨.ld, "LD C,L", .rR, .c, .l, none, none⟩, fun _ _ => .ldCL)
  | 0x4F => some (⟨.ld, "LD C,A", .rR, .c, .a, none, none⟩, fun _ _ => .ldCA)
  | 0x50 => some (⟨.ld, "LD D,B", .rR, .d, .b, none, none⟩, fun _ _ => .ldDB)
  | 0x51 => some (⟨.ld, "LD D,C", .rR, .d, .c, none, none⟩, fun _ _ => .ldDC)
  | 0x52 => some (⟨.ld, "LD D,D", .rR, .d, .d, none, none⟩, fun _ _ => .ldDD)
  | 0x53 => some (⟨.ld, "LD D,E", .rR, .d, .e, none, none⟩, fun _ _ => .ldDE)
  | 0x54 => some (⟨.ld, "LD D,H", .rR, .d, .h, none, none⟩, fun _ _ => .ldDH)
  | 0x55 => some (⟨.ld, "LD D,L", .rR, .d, .l, none, none⟩, fun _ _ => .ldDL)
  | 0x57 => some (⟨.ld, "LD D,A", .rR, .d, .a, none, none⟩, fun _ _ => .ldDA)
  | 0x58 => some (⟨.ld, "LD E,B", .rR, .e, .b, none, none⟩, fun _ _ => .ldEB)
  | 0x59 => some (⟨.ld, "LD E,C", .rR, .e, .c, none, none⟩, fun _ _ => .ldEC)
  | 0x5A => some (⟨.ld, "LD E,D", .rR, .e, .d, none, none⟩, fun _ _ => .ldED)
  | 0x5B => some (⟨.ld, "LD E,E", .rR, .e, .e, none, none⟩, fun _ _ => .ldEE)
  | 0x5C => some (⟨.ld, "LD E,H", .rR, .e, .h, none, none⟩, fun _ _ => .ldEH)
  | 0x5D => some (⟨.ld, "LD E,L", .rR, .e, .l, none, none⟩, fun _ _ => .ldEL)
  | 0x5F => some (⟨.ld, "LD E,A", .rR, .e, .a, none, none⟩, fun _ _ => .ldEA)
  | 0x60 => some (⟨.ld, "LD H,B", .rR, .h, .b, none, none⟩, fun _ _ => .ldHB)
  | 0x61 => some (⟨.ld, "LD H,C", .rR, .h, .c, none, none⟩, fun _ _ => .ldHC)
  | 0x62 => some (⟨.ld, "LD H,D", .rR, .h, .d, none, none⟩, fun _ _ => .ldHD)
  | 0x63 => some (⟨.ld, "LD H,E", .rR, .h, .e, none, none⟩, fun _ _ => .ldHE)
  | 0x64 => some (⟨.ld, "LD H,H", .rR, .h, .h, none, none⟩, fun _ _ => .ldHH)
  | 0x65 => some (⟨.ld, "LD H,L", .rR, .h, .l, none, none⟩, fun _ _ => .ldHL)
  | 0x67 => some (⟨.ld, "LD H,A", .rR, .h, .a, none, none⟩, fun _ _ => .ldHA)
  | 0x68 => some (⟨.ld, "LD L,B", .rR, .l, .b, none, none⟩, fun _ _ => .ldLB)
  | 0x69 => some (⟨.ld, "LD L,C", .rR, .l, .c, none, none⟩, fun _ _ => .ldLC)
  | 0x6A => some (⟨.ld, "LD L,D", .rR, .l, .d, none, none⟩, fun _ _ => .ldLD)
  | 0x6B => some (⟨.ld, "LD L,E", .rR, .l, .e, none, none⟩, fun _ _ => .ldLE)
  | 0x6C => some (⟨.ld, "LD L,H", .rR, .l, .h, none, none⟩, fun _ _ => .ldLH)
  | 0x6D => some (⟨.ld, "LD L,L", .rR, .l, .l, none, none⟩, fun _ _ => .ldLL)
  | 0x6F => some (⟨.ld, "LD L,A", .rR, .l, .a, none, none⟩, fun _ _ => .ldLA)
  | 0x70 => some (⟨.ld, "LD (HL),B", .mrR, .hl, .b, none, none⟩, fun _ _ => .ldIndHlB)
  | 0x71 => some (⟨.ld, "LD (HL),C", .mrR, .hl, .c, none, none⟩, fun _ _ => .ldIndHlC)
  | 0x72 => some (⟨.ld, "LD (HL),D", .mrR, .hl, .d, none, none⟩, fun _ _ => .ldIndHlD)
  | 0x73 => some (⟨.ld, "LD (HL),E", .mrR, .hl, .e, none, none⟩, fun _ _ => .ldIndHlE)
  | 0x74 => some (⟨.ld, "LD (HL),H", .mrR, .hl, .h, none, none⟩, fun _ _ => .ldIndHlH)
  | 0x75 => some (⟨.ld, "LD (HL),L", .mrR, .hl, .l, none, none⟩, fun _ _ => .ldIndHlL)
  | 0x77 => some (⟨.ld, "LD (HL),A", .mrR, .hl, .a, none, none⟩, fun _ _ => .ldIndHlA)
  | 0x78 => some (⟨.ld, "LD A,B", .rR, .a, .b, none, none⟩, fun _ _ => .ldAB)
  | 0x79 => some (⟨.ld, "LD A,C", .rR, .a, .c, none, none⟩, fun _ _ => .ldAC)
  | 0x7A => some (⟨.ld, "LD A,D", .rR, .a, .d, none, none⟩, fun _ _ => .ldAD)
  | 0x7B => some (⟨.ld, "LD A,E", .rR, .a, .e, none, none⟩, fun _ _ => .ldAE)
  | 0x7C => some (⟨.ld, "LD A,H", .rR, .a, .h, none, none⟩, fun _ _ => .ldAH)
  | 0x7D => some (⟨.ld, "LD A,L", .rR, .a, .l, none, none⟩, fun _ _ => .ldAL)
  | 0x7F => some (⟨.ld, "LD A,A", .rR, .a, .a, none, none⟩, fun _ _ => .ldAA)
  | 0xA8 => some (⟨.xor, "XOR A,B", .r, .b, .noReg, none, none⟩, fun _ _ => .xorB)
  | 0xA9 => some (⟨.xor, "XOR A,C", .r, .c, .noReg, none, none⟩, fun _ _ => .xorC)
  | 0xAA => some (⟨.xor, "XOR A,D", .r, .d, .noReg, none, none⟩, fun _ _ => .xorD)
  | 0xAB => some (⟨.xor, "XOR A,E", .r, .e, .noReg, none, none⟩, fun _ _ => .xorE)
  | 0xAC => some (⟨.xor, "XOR A,H", .r, .h, .noReg, none, none⟩, fun _ _ => .xorH)
  | 0xAD => some (⟨.xor, "XOR A,L", .r, .l, .noReg, none, none⟩, fun _ _ => .xorL)
  | 0xAF => some (⟨.xor, "XOR A,A", .r, .a, .noReg, none, none⟩, fun _ _ => .xorA)
  | 0xC3 => some (⟨.jp, "JP a16", .d16, .noReg, .noReg, (some .always), none⟩, fun b1 b2 => .jpA16 (wordOf b2 b1))
  | 0xF8 => some (⟨.ld, "LD HL,SP+e8", .hlSpr, .hl, .sp, none, none⟩, fun b1 _ => .ldHlSpE8 b1)
  | _ => none

/-- The default Instruction Table `ITAB` (R63): every value not listed holds the INVALID descriptor (R64). -/
def itab (op : Byte) : Descriptor :=
  match tableRow op with
  | some row => row.1
  | none => Descriptor.invalid

/-- How many operand bytes follow the opcode byte in the encoding, by addressing mode (R61, R66). -/
def Mode.operandBytes : Mode → Nat
  | .imp => 0
  | .r => 0
  | .rR => 0
  | .rD8 => 1
  | .rD16 => 2
  | .d16 => 2
  | .mrR => 0
  | .hliR => 0
  | .hldR => 0
  | .rel8 => 1
  | .hlSpr => 1

/-- The instruction with opcode `op` whose operand bytes are `b1` and `b2`, as many of them as its format has. -/
def assemble (op b1 b2 : Byte) : Instr :=
  match tableRow op with
  | some row => row.2 b1 b2
  | none => .invalid op

/-- Why a byte sequence holds no whole instruction. Every opcode byte has a descriptor (R71), so the only reasons are
that the sequence ends too early. -/
inductive DecodeError where
  /-- The sequence is empty. -/
  | noOpcode
  /-- The format of opcode `op` needs more operand bytes than follow. -/
  | missingOperand (op : Byte)
deriving DecidableEq, Repr

/-- Reads one instruction from the front of a byte sequence and returns the rest. The first byte alone gives the length
(R66). -/
def decode : List Byte → Except DecodeError (Instr × List Byte)
  | [] => .error .noOpcode
  | op :: rest =>
    match (itab op).mode.operandBytes, rest with
    | 0, rest => .ok (assemble op 0 0, rest)
    | 1, b1 :: rest => .ok (assemble op b1 0, rest)
    | 2, b1 :: b2 :: rest => .ok (assemble op b1 b2, rest)
    | _, _ => .error (.missingOperand op)

/-- The opcode byte of an instruction (R63). -/
def Instr.opcode : Instr → Byte
  | .nop => 0x00
  | .ldBcD16 _ => 0x01
  | .ldIndBcA => 0x02
  | .decB => 0x05
  | .ldBD8 _ => 0x06
  | .decC => 0x0D
  | .ldCD8 _ => 0x0E
  | .ldDeD16 _ => 0x11
  | .ldIndDeA => 0x12
  | .decD => 0x15
  | .ldDD8 _ => 0x16
  | .decE => 0x1D
  | .ldED8 _ => 0x1E
  | .jrNz _ => 0x20
  | .ldHlD16 _ => 0x21
  | .ldHliA => 0x22
  | .decH => 0x25
  | .ldHD8 _ => 0x26
  | .jrZ _ => 0x28
  | .decL => 0x2D
  | .ldLD8 _ => 0x2E
  | .jrNc _ => 0x30
  | .ldSpD16 _ => 0x31
  | .ldHldA => 0x32
  | .jrC _ => 0x38
  | .decA => 0x3D
  | .ldAD8 _ => 0x3E
  | .ldBB => 0x40
  | .ldBC => 0x41
  | .ldBD => 0x42
  | .ldBE => 0x43
  | .ldBH => 0x44
  | .ldBL => 0x45
  | .ldBA => 0x47
  | .ldCB => 0x48
  | .ldCC => 0x49
  | .ldCD => 0x4A
  | .ldCE => 0x4B
  | .ldCH => 0x4C
  | .ldCL => 0x4D
  | .ldCA => 0x4F
  | .ldDB => 0x50
  | .ldDC => 0x51
  | .ldDD => 0x52
  | .ldDE => 0x53
  | .ldDH => 0x54
  | .ldDL => 0x55
  | .ldDA => 0x57
  | .ldEB => 0x58
  | .ldEC => 0x59
  | .ldED => 0x5A
  | .ldEE => 0x5B
  | .ldEH => 0x5C
  | .ldEL => 0x5D
  | .ldEA => 0x5F
  | .ldHB => 0x60
  | .ldHC => 0x61
  | .ldHD => 0x62
  | .ldHE => 0x63
  | .ldHH => 0x64
  | .ldHL => 0x65
  | .ldHA => 0x67
  | .ldLB => 0x68
  | .ldLC => 0x69
  | .ldLD => 0x6A
  | .ldLE => 0x6B
  | .ldLH => 0x6C
  | .ldLL => 0x6D
  | .ldLA => 0x6F
  | .ldIndHlB => 0x70
  | .ldIndHlC => 0x71
  | .ldIndHlD => 0x72
  | .ldIndHlE => 0x73
  | .ldIndHlH => 0x74
  | .ldIndHlL => 0x75
  | .ldIndHlA => 0x77
  | .ldAB => 0x78
  | .ldAC => 0x79
  | .ldAD => 0x7A
  | .ldAE => 0x7B
  | .ldAH => 0x7C
  | .ldAL => 0x7D
  | .ldAA => 0x7F
  | .xorB => 0xA8
  | .xorC => 0xA9
  | .xorD => 0xAA
  | .xorE => 0xAB
  | .xorH => 0xAC
  | .xorL => 0xAD
  | .xorA => 0xAF
  | .jpA16 _ => 0xC3
  | .ldHlSpE8 _ => 0xF8
  | .invalid op => op

/-- The operand bytes of an instruction in memory order: the low byte of a 16-bit operand first (R65, R66). -/
def Instr.operands : Instr → List Byte
  | .ldBcD16 d16 => [loByte d16, hiByte d16]
  | .ldBD8 d8 => [d8]
  | .ldCD8 d8 => [d8]
  | .ldDeD16 d16 => [loByte d16, hiByte d16]
  | .ldDD8 d8 => [d8]
  | .ldED8 d8 => [d8]
  | .jrNz e8 => [e8]
  | .ldHlD16 d16 => [loByte d16, hiByte d16]
  | .ldHD8 d8 => [d8]
  | .jrZ e8 => [e8]
  | .ldLD8 d8 => [d8]
  | .jrNc e8 => [e8]
  | .ldSpD16 d16 => [loByte d16, hiByte d16]
  | .jrC e8 => [e8]
  | .ldAD8 d8 => [d8]
  | .jpA16 a16 => [loByte a16, hiByte a16]
  | .ldHlSpE8 e8 => [e8]
  | _ => []

/-- The bytes of an instruction in memory order (R66). -/
def encode (i : Instr) : List Byte := i.opcode :: i.operands

/-- The length of an instruction in bytes, opcode included (R66). -/
def Instr.length (i : Instr) : Nat := 1 + i.operands.length

/-- Byte `k` of a table word: bit 0 is the least significant bit of the first byte. -/
def tableByte (w k : Nat) : Byte := BitVec.ofNat 8 (w / 256 ^ k)

/-- The three bytes an instruction can have, of a table word of `nbits` bits; every bit above `nbits` is 0. -/
def tableBytes (nbits w : Nat) : List Byte :=
  [tableByte (w % 2 ^ nbits) 0, tableByte (w % 2 ^ nbits) 1, tableByte (w % 2 ^ nbits) 2]

/-- The instruction the decoder reads from a table word. -/
def decodeTableWord (nbits w : Nat) : Option Instr :=
  match decode (tableBytes nbits w) with
  | .ok (i, _) => some i
  | .error _ => none

end Sys2Proof
end

