-- ==== Sys2Proof/Machine/State.lean ====
section
/-! DEFINITION. The state of the machine as plain data (10_state.md), its reset value (R35), and the reasons a step can
stop. -/

namespace Sys2Proof.Machine

/-- The register file: eight 8-bit registers, SP and PC (R10, R12, R13). The pairs AF, BC, DE, HL are views of it (R11). -/
structure RegFile where
  a : Byte
  f : Byte
  b : Byte
  c : Byte
  d : Byte
  e : Byte
  h : Byte
  l : Byte
  sp : Word
  pc : Word
deriving DecidableEq, Repr

/-- The sub-causes of class (b), each with the detail R161 records for it. -/
inductive SubCause where
  | unmappedRead (address : Word)
  | writeViolation (address : Word)
  | unimplementedMode (mode : Mode)
  | unimplementedKind (kind : Kind)
  | unimplementedCombination (kind : Kind)
  | unsupportedRegister (reg : RegName)
deriving DecidableEq, Repr

/-- The two classes of fatal error (60_exceptions.md R160, R161). -/
inductive Cause where
  | unknownOpcode
  | unimplemented (sub : SubCause)
deriving DecidableEq, Repr

/-- The fault record (R19): the cause with its detail, the address the opcode byte was fetched from, and that byte, or
`none` when the opcode read itself faulted. -/
structure FaultRecord where
  cause : Cause
  pcAtFetch : Word
  opcode : Option Byte
deriving DecidableEq, Repr

/-- The trace record of 60_exceptions.md R176: an output of a step, not state. -/
structure TraceRecord where
  address : Word
  opcode : Byte
  mnemonic : String
deriving DecidableEq, Repr

/-- The bytes of ROM and RAM that the launch has placed or the core has stored, by address. Canonical form:
`Memory.wf` in Machine/Ops.lean. An unlisted address has no value here; what the bus reads there is
`Memory.byteAt`. -/
abbrev Memory := List Host.Cell

/-- Everything the spec gives the machine (10_state.md). `curOpcode` to `destIsMem` are the transient latches of R25,
`cycles` the optional tally of R33, `cfg` the parameters of R5, which no step changes. -/
structure State where
  cfg : Config
  regs : RegFile
  halted : Bool
  fault : Option FaultRecord
  curOpcode : Byte
  curInst : Descriptor
  fetched : Word
  memDest : Word
  destIsMem : Bool
  cycles : Nat
  mem : Memory
deriving DecidableEq, Repr

/-- The reasons a step ends in a stop with no next state. There is none: the fatal errors of R160 are taken, as R162
describes them, and give a next state (assumption 1). Safe: nothing raises it. -/
inductive Fault where
deriving DecidableEq, Repr

/-- The reasons a step is refused. -/
inductive Refusal where
  /-- Raised by an arm of `exec` for an instruction that has no meaning yet, by its mnemonic. Safe. No arm raises it. -/
  | notModelled (mnemonic : String)
  /-- Raised by `step` on a state that is not halted and that no launch may give: the low nibble of F is not zero
  (10_state.md R14; "a launch state with a non-zero low nibble is `refuse`d", 93_implementation_defined.md U8), or the
  region boundaries break the constraint of 00_scope.md R5. Safe. -/
  | illegalLaunchState
deriving DecidableEq, Repr

/-- The register file after `init()`: every register zero, PC at the entry address (R35). -/
def RegFile.reset (entry : Word) : RegFile := ⟨0, 0, 0, 0, 0, 0, 0, 0, 0, entry⟩

/-- The machine right after reset (R35), with the default parameters of R5 and no byte of memory placed: ROM image and
window hold their launch contents. -/
def State.reset : State where
  cfg := Config.default
  regs := RegFile.reset Config.default.entryPc
  halted := false
  fault := none
  curOpcode := 0
  curInst := Descriptor.invalid
  fetched := 0
  memDest := 0
  destIsMem := false
  cycles := 0
  mem := []

end Sys2Proof.Machine
end

