-- ==== Sys2Proof/Machine/Flags.lean ====
section
/-! DEFINITION. The flags in `F` (10_state.md R14, R15), the three-valued flag update (R22) and the branch conditions (R23). -/

namespace Sys2Proof.Machine

/-- `F.Z`, bit 7 (R15). -/
def flagZ (f : Byte) : Bool := f.getLsbD 7

/-- `F.N`, bit 6 (R15). -/
def flagN (f : Byte) : Bool := f.getLsbD 6

/-- `F.H`, bit 5 (R15). -/
def flagH (f : Byte) : Bool := f.getLsbD 5

/-- `F.C`, bit 4 (R15). -/
def flagC (f : Byte) : Bool := f.getLsbD 4

/-- The argument of a flag update: "never a plain boolean" (R22). -/
inductive FlagArg where
  | set | clear | unchanged
deriving DecidableEq, Repr

/-- `B2F(b)` (R22). -/
def b2f (b : Bool) : FlagArg := if b then .set else .clear

/-- Applies one flag argument to the bits of `mask`. -/
def FlagArg.apply (arg : FlagArg) (mask f : Byte) : Byte :=
  match arg with
  | .set => f ||| mask
  | .clear => f &&& ~~~mask
  | .unchanged => f

/-- `SetFlags(z, n, h, c)` on the value of `F`, with the masks of R15 (R22). -/
def setFlags (z n h c : FlagArg) (f : Byte) : Byte :=
  c.apply 0x10 (h.apply 0x20 (n.apply 0x40 (z.apply 0x80 f)))

/-- The flags `DEC` leaves, from the old value of its register and the old `F` (42_alu_dec_xor.md R120). -/
def decFlags (v f : Byte) : Byte :=
  setFlags (b2f (v - 1 == 0)) .set (b2f (v &&& 0x0F == 0)) .unchanged f

/-- The flags `XOR` leaves, from its result and the old `F` (R121). -/
def xorFlags (res f : Byte) : Byte := setFlags (b2f (res == 0)) .clear .clear .clear f

/-- `Cond(c)` against the value of `F` (R23). -/
def condHolds (cond : Cond) (f : Byte) : Bool :=
  match cond with
  | .always => true
  | .nz => !flagZ f
  | .z => flagZ f
  | .nc => !flagC f
  | .c => flagC f

end Sys2Proof.Machine
end

