-- ==== Sys2Proof/Machine/Ops.lean ====
section
/-! DEFINITION. The named operations over registers, memory and latches that every meaning is written with, and the
raising of a fatal error (60_exceptions.md R162). -/

namespace Sys2Proof.Machine

/-! ### Registers -/

/-- The value of one of the seven operand registers. -/
def RegFile.get (x : RegFile) : GReg → Byte
  | .b => x.b
  | .c => x.c
  | .d => x.d
  | .e => x.e
  | .h => x.h
  | .l => x.l
  | .a => x.a

/-- Writes one of the seven operand registers. -/
def RegFile.put (x : RegFile) (r : GReg) (v : Byte) : RegFile :=
  match r with
  | .b => { x with b := v }
  | .c => { x with c := v }
  | .d => { x with d := v }
  | .e => { x with e := v }
  | .h => { x with h := v }
  | .l => { x with l := v }
  | .a => { x with a := v }

/-- The 16-bit value of `BC`, `DE`, `HL` or `SP`: a pair has its first letter in the high byte (10_state.md R11). -/
def RegFile.getPair (x : RegFile) : PairReg → Word
  | .bc => wordOf x.b x.c
  | .de => wordOf x.d x.e
  | .hl => wordOf x.h x.l
  | .sp => x.sp

/-- Writes `BC`, `DE`, `HL` (both halves, R21) or `SP`. -/
def RegFile.putPair (x : RegFile) (r : PairReg) (v : Word) : RegFile :=
  match r with
  | .bc => { x with b := hiByte v, c := loByte v }
  | .de => { x with d := hiByte v, e := loByte v }
  | .hl => { x with h := hiByte v, l := loByte v }
  | .sp => { x with sp := v }

/-- Replaces the flag register. -/
def RegFile.setF (x : RegFile) (v : Byte) : RegFile := { x with f := v }

/-- `PC <- v` (R13). -/
def RegFile.setPc (x : RegFile) (v : Word) : RegFile := { x with pc := v }

/-- The value `F` takes when the byte `v` is written to it: bits 3..0 are hardwired to zero (R21, D15). -/
def maskF (v : Byte) : Byte := v &&& 0xF0

/-- `is16(r)` (R24). -/
def isReg16 : RegName → Bool
  | .af | .bc | .de | .hl | .sp | .pc => true
  | .a | .f | .b | .c | .d | .e | .h | .l | .noReg => false

/-- `r` names an 8-bit register (R24). -/
def isReg8 : RegName → Bool
  | .a | .f | .b | .c | .d | .e | .h | .l => true
  | .af | .bc | .de | .hl | .sp | .pc | .noReg => false

/-- `x[r]`, register read, 16 bits wide; reading `NONE` raises `UnsupportedRegister` (R20). -/
def readReg (x : RegFile) (r : RegName) : Except Cause Word :=
  match r with
  | .a => .ok (zext16 (x.get .a))
  | .f => .ok (zext16 x.f)
  | .b => .ok (zext16 (x.get .b))
  | .c => .ok (zext16 (x.get .c))
  | .d => .ok (zext16 (x.get .d))
  | .e => .ok (zext16 (x.get .e))
  | .h => .ok (zext16 (x.get .h))
  | .l => .ok (zext16 (x.get .l))
  | .af => .ok (wordOf x.a x.f)
  | .bc => .ok (x.getPair .bc)
  | .de => .ok (x.getPair .de)
  | .hl => .ok (x.getPair .hl)
  | .sp => .ok (x.getPair .sp)
  | .pc => .ok x.pc
  | .noReg => .error (.unimplemented (.unsupportedRegister .noReg))

/-- `x[r] <- v`, register write, masked to the register's width; writing `NONE` raises `UnsupportedRegister` (R21). -/
def writeReg (x : RegFile) (r : RegName) (v : Word) : Except Cause RegFile :=
  match r with
  | .a => .ok (x.put .a (loByte v))
  | .f => .ok (x.setF (maskF (loByte v)))
  | .b => .ok (x.put .b (loByte v))
  | .c => .ok (x.put .c (loByte v))
  | .d => .ok (x.put .d (loByte v))
  | .e => .ok (x.put .e (loByte v))
  | .h => .ok (x.put .h (loByte v))
  | .l => .ok (x.put .l (loByte v))
  | .af => .ok ((x.put .a (hiByte v)).setF (maskF (loByte v)))
  | .bc => .ok (x.putPair .bc v)
  | .de => .ok (x.putPair .de v)
  | .hl => .ok (x.putPair .hl v)
  | .sp => .ok (x.putPair .sp v)
  | .pc => .ok (x.setPc v)
  | .noReg => .error (.unimplemented (.unsupportedRegister .noReg))

/-! ### Memory -/

/-- Every listed address is at least `lo`, below 2^16 and below the next one. -/
def Memory.wfFrom (lo : Nat) : Memory → Bool
  | [] => true
  | (a, _) :: rest => decide (lo ≤ a) && decide (a < 0x10000) && Memory.wfFrom (a + 1) rest

/-- The canonical form of memory: addresses strictly rising, all in the 2^16-byte address space (R31). -/
def Memory.wf (m : Memory) : Bool := Memory.wfFrom 0 m

/-- The byte listed at an address, if there is one. -/
def Memory.lookup (m : Memory) (a : Nat) : Option Byte :=
  match m with
  | [] => none
  | (b, v) :: rest => if b = a then some v else Memory.lookup rest a

/-- Lists the byte `v` at address `a`, in its place by address. -/
def Memory.insert (m : Memory) (a : Nat) (v : Byte) : Memory :=
  match m with
  | [] => [(a, v)]
  | (b, w) :: rest =>
    if a < b then (a, v) :: (b, w) :: rest
    else if a = b then (a, v) :: rest
    else (b, w) :: Memory.insert rest a v

/-- The content of an address: the listed byte, or the launch content where nothing is listed (R50 (c), R183). -/
def Memory.byteAt (m : Memory) (a : Nat) : Byte := (m.lookup a).getD (Config.launchByte a)

/-- Lists consecutive bytes from address `a`, modulo 2^16. -/
def Memory.place (m : Memory) (a : Word) (bytes : List Byte) : Memory :=
  match bytes with
  | [] => m
  | v :: rest => Memory.place (m.insert a.toNat v) (a + 1) rest

/-- `Region(a)` (20_memory.md R43). -/
def region (c : Config) (a : Word) : Region :=
  if a.toNat < c.romLimit then .rom
  else if c.ramBase ≤ a.toNat ∧ a.toNat < c.ramLimit then .ram
  else .unmapped

/-- `a` has a byte that can be read: an address of the window, or a ROM address inside the image (R41, R54). -/
def readable (c : Config) (a : Word) : Bool :=
  match region c a with
  | .rom => decide (a.toNat < c.romSize)
  | .ram => true
  | .unmapped => false

/-- `MemRead(a, 1)` (R41). -/
def State.readByte (s : State) (a : Word) : Except Cause Byte :=
  if readable s.cfg a then .ok (s.mem.byteAt a.toNat)
  else .error (.unimplemented (.unmappedRead a))

/-- `MemWrite(a, 1, v)` (R42). -/
def State.writeByte (s : State) (a : Word) (v : Byte) : Except Cause State :=
  match region s.cfg a with
  | .ram => .ok { s with mem := s.mem.insert a.toNat v }
  | .rom => .error (.unimplemented (.writeViolation a))
  | .unmapped => .error (.unimplemented (.writeViolation a))

/-- `MemRead(a, 2)`: low byte at `a` first, then the high byte at `a +16 1` (R44). -/
def State.readWord (s : State) (a : Word) : Except Cause Word :=
  match s.readByte a with
  | .error c => .error c
  | .ok lo =>
    match s.readByte (a + 1) with
    | .error c => .error c
    | .ok hi => .ok (wordOf hi lo)

/-- `MemWrite(a, 2, v)`: high byte at `a +16 1` first, then the low byte at `a` (R45). -/
def State.writeWord (s : State) (a : Word) (v : Word) : Except Cause State :=
  match s.writeByte (a + 1) (hiByte v) with
  | .error c => .error c
  | .ok s1 => s1.writeByte a (loByte v)

/-! ### Latches, PC and the tally -/

/-- The latches cleared at the start of every non-halted step (10_state.md R26). -/
def State.clearLatches (s : State) : State :=
  { s with fetched := 0, memDest := 0, destIsMem := false }

/-- PC one further, modulo 2^16 (R13). -/
def State.advancePc (s : State) : State := { s with regs := s.regs.setPc (s.regs.pc + 1) }

/-- What fetch leaves once the opcode byte `op` with descriptor `d` is read: PC past it, `cur_opcode` and `cur_inst`
latched (40_engine.md R82). -/
def State.latchOpcode (s : State) (op : Byte) (d : Descriptor) : State :=
  { s.advancePc with curOpcode := op, curInst := d }

/-- What `FetchByte` leaves once an operand byte is read: PC past it and, if cycles are counted, one more of them
(R96, 70_reset_and_hazards.md R195). -/
def State.passOperand (s : State) : State :=
  { s.advancePc with cycles := bif s.cfg.countCycles then s.cycles + 1 else s.cycles }

/-- The start of a step that has fetched the opcode `op` of the default table: latches cleared, opcode latched, PC
past it (R80, R82). -/
def State.begin (s : State) (op : Byte) : State := s.clearLatches.latchOpcode op (itab op)

/-- Latches the operand value. -/
def State.latchFetched (s : State) (v : Word) : State := { s with fetched := v }

/-- Latches a destination in memory (R91). -/
def State.latchDest (s : State) (a : Word) : State := { s with memDest := a, destIsMem := true }

/-- Replaces the register file. -/
def State.withRegs (s : State) (x : RegFile) : State := { s with regs := x }

/-- `PC <- target`. -/
def State.jumpTo (s : State) (target : Word) : State := { s with regs := s.regs.setPc target }

/-! ### Fatal errors -/

/-- `raise X(info)` (60_exceptions.md R162), in a step that began in `start`, fetched `op` (`none` where the opcode read
itself raised) and has reached `now`: registers, SP, PC and memory get the values they had when the step began, `halted` is
set, and the record is written if there was none. `cycles` and the latches are not among what R162 restores
(assumption 5). -/
def raise (cause : Cause) (op : Option Byte) (start now : State) : State :=
  { now with
    regs := start.regs
    mem := start.mem
    halted := true
    fault := some (now.fault.getD ⟨cause, start.regs.pc, op⟩) }

/-! ### The host's operations -/

/-- `init()`, the core's reset and the only way out of the halted state (70_reset_and_hazards.md R180, R167): the state of
R35, memory untouched. -/
def State.init (s : State) : State :=
  { s with
    regs := RegFile.reset s.cfg.entryPc
    halted := false
    fault := none
    curOpcode := 0
    curInst := Descriptor.invalid
    fetched := 0
    memDest := 0
    destIsMem := false
    cycles := 0 }

/-- The state is one a launch may give and a run may reach: the low nibble of F is zero (R14) and the parameters meet
R5 (assumption 4). -/
def State.legal (s : State) : Bool := (s.regs.f &&& 0x0F == 0) && s.cfg.wf

end Sys2Proof.Machine
end

