-- ==== Sys2Proof/Machine/Operands.lean ====
section
/-! DEFINITION. Operand resolution for an instruction of the default table, one operation for each addressing mode
(40_engine.md R85 to R94). Immediate modes get the operand bytes the fetch has read; the byte of `AM_HL_SPR` is never
fetched (R95) and that mode resolves nothing. -/

namespace Sys2Proof.Machine

/-- `AM_R`: the operand register (R86). -/
def resolveReg (r : GReg) (s : State) : State := s.latchFetched (zext16 (s.regs.get r))

/-- `AM_R_R`: the source register (R87). -/
def resolveRegReg (src : GReg) (s : State) : State := s.latchFetched (zext16 (s.regs.get src))

/-- `AM_R_D8`: one operand byte (R88). -/
def resolveImm8 (d8 : Byte) (s : State) : State := s.passOperand.latchFetched (zext16 d8)

/-- `AM_R_D16`: two operand bytes, the low one first (R89). -/
def resolveImm16 (d16 : Word) (s : State) : State := s.passOperand.passOperand.latchFetched d16

/-- `AM_D16`: as R89 without a destination register (R90). -/
def resolveAddr16 (a16 : Word) (s : State) : State := s.passOperand.passOperand.latchFetched a16

/-- `AM_MR_R`: the datum from the source register, the address from the pointer (R91). -/
def resolveMemReg (ptr : PairReg) (src : GReg) (s : State) : State :=
  (s.latchFetched (zext16 (s.regs.get src))).latchDest (s.regs.getPair ptr)

/-- `AM_HLI_R`: R91 through HL, then HL one up modulo 2^16 (R92). -/
def resolveHlInc (src : GReg) (s : State) : State :=
  (resolveMemReg .hl src s).withRegs (s.regs.putPair .hl (s.regs.getPair .hl + 1))

/-- `AM_HLD_R`: R91 through HL, then HL one down modulo 2^16 (R93). -/
def resolveHlDec (src : GReg) (s : State) : State :=
  (resolveMemReg .hl src s).withRegs (s.regs.putPair .hl (s.regs.getPair .hl - 1))

/-- `AM_REL8`: the displacement byte as fetched (R94). -/
def resolveRel8 (e8 : Byte) (s : State) : State := s.passOperand.latchFetched (zext16 e8)

end Sys2Proof.Machine
end

