-- ==== Sys2Proof/Machine/Alu.lean ====
section
/-! DEFINITION. The ALU instructions `DEC r` and `XOR A,r` (42_alu_dec_xor.md). -/

namespace Sys2Proof.Machine

/-- `DEC r` with opcode `op` (R120): the register one down modulo 2^8, the flags from its old value. -/
def decReg (op : Byte) (r : GReg) (s : State) : State :=
  let s1 := resolveReg r (s.begin op)
  let v := loByte s1.fetched
  s1.withRegs ((s1.regs.put r (v - 1)).setF (decFlags v s1.regs.f))

/-- `XOR A,r` with opcode `op` (R121): `A ^ r` in the accumulator, the flags from the result. -/
def xorReg (op : Byte) (r : GReg) (s : State) : State :=
  let s1 := resolveReg r (s.begin op)
  let res := s1.regs.a ^^^ loByte s1.fetched
  s1.withRegs ((s1.regs.put .a res).setF (xorFlags res s1.regs.f))

/-- `DEC B` (R120). -/
def execDecB (s : State) : Host.Outcome State Fault Refusal :=
  .next (decReg 0x05 .b s)

/-- `DEC C` (R120). -/
def execDecC (s : State) : Host.Outcome State Fault Refusal :=
  .next (decReg 0x0D .c s)

/-- `DEC D` (R120). -/
def execDecD (s : State) : Host.Outcome State Fault Refusal :=
  .next (decReg 0x15 .d s)

/-- `DEC E` (R120). -/
def execDecE (s : State) : Host.Outcome State Fault Refusal :=
  .next (decReg 0x1D .e s)

/-- `DEC H` (R120). -/
def execDecH (s : State) : Host.Outcome State Fault Refusal :=
  .next (decReg 0x25 .h s)

/-- `DEC L` (R120). -/
def execDecL (s : State) : Host.Outcome State Fault Refusal :=
  .next (decReg 0x2D .l s)

/-- `DEC A` (R120). -/
def execDecA (s : State) : Host.Outcome State Fault Refusal :=
  .next (decReg 0x3D .a s)

/-- `XOR A,B` (R121). -/
def execXorB (s : State) : Host.Outcome State Fault Refusal :=
  .next (xorReg 0xA8 .b s)

/-- `XOR A,C` (R121). -/
def execXorC (s : State) : Host.Outcome State Fault Refusal :=
  .next (xorReg 0xA9 .c s)

/-- `XOR A,D` (R121). -/
def execXorD (s : State) : Host.Outcome State Fault Refusal :=
  .next (xorReg 0xAA .d s)

/-- `XOR A,E` (R121). -/
def execXorE (s : State) : Host.Outcome State Fault Refusal :=
  .next (xorReg 0xAB .e s)

/-- `XOR A,H` (R121). -/
def execXorH (s : State) : Host.Outcome State Fault Refusal :=
  .next (xorReg 0xAC .h s)

/-- `XOR A,L` (R121). -/
def execXorL (s : State) : Host.Outcome State Fault Refusal :=
  .next (xorReg 0xAD .l s)

/-- `XOR A,A` (R121). -/
def execXorA (s : State) : Host.Outcome State Fault Refusal :=
  .next (xorReg 0xAF .a s)

end Sys2Proof.Machine
end

