-- ==== Sys2Proof/Machine/Jump.lean ====
section
/-! DEFINITION. Control transfer: `JP a16` and `JR cc,e8` (44_jp_jr.md). Targets are not checked (R153). -/

namespace Sys2Proof.Machine

/-- `JP a16`: PC gets the absolute target (R150). -/
def execJpA16 (a16 : Word) (s : State) : Host.Outcome State Fault Refusal :=
  let s1 := resolveAddr16 a16 (s.begin 0xC3)
  .next (s1.jumpTo s1.fetched)

/-- `JR cc,e8` with opcode `op` (R151): PC past both bytes, then, if the condition holds, the sign-extended displacement added
modulo 2^16. -/
def jumpRelative (op : Byte) (cc : Cond) (e8 : Byte) (s : State) : State :=
  let s1 := resolveRel8 e8 (s.begin op)
  if condHolds cc s1.regs.f then s1.jumpTo (s1.regs.pc + sext16 (loByte s1.fetched)) else s1

/-- `JR NZ,e8` (R151). -/
def execJrNz (e8 : Byte) (s : State) : Host.Outcome State Fault Refusal :=
  .next (jumpRelative 0x20 .nz e8 s)

/-- `JR Z,e8` (R151). -/
def execJrZ (e8 : Byte) (s : State) : Host.Outcome State Fault Refusal :=
  .next (jumpRelative 0x28 .z e8 s)

/-- `JR NC,e8` (R151). -/
def execJrNc (e8 : Byte) (s : State) : Host.Outcome State Fault Refusal :=
  .next (jumpRelative 0x30 .nc e8 s)

/-- `JR C,e8` (R151). -/
def execJrC (e8 : Byte) (s : State) : Host.Outcome State Fault Refusal :=
  .next (jumpRelative 0x38 .c e8 s)

end Sys2Proof.Machine
end

