-- ==== Sys2Proof/Machine/Load.lean ====
section
/-! DEFINITION. The LD family (43_ld.md): register moves, immediates, stores, and the form that is recognised and faults. No
LD writes a flag (R130). -/

namespace Sys2Proof.Machine

/-- `LD r,r'` with opcode `op` (R131). -/
def loadReg (op : Byte) (dst src : GReg) (s : State) : State :=
  let s1 := resolveRegReg src (s.begin op)
  s1.withRegs (s1.regs.put dst (loByte s1.fetched))

/-- `LD r,d8` with opcode `op` (R132). -/
def loadImm8 (op : Byte) (dst : GReg) (d8 : Byte) (s : State) : State :=
  let s1 := resolveImm8 d8 (s.begin op)
  s1.withRegs (s1.regs.put dst (loByte s1.fetched))

/-- `LD rr,d16` with opcode `op` (R133). -/
def loadImm16 (op : Byte) (dst : PairReg) (d16 : Word) (s : State) : State :=
  let s1 := resolveImm16 d16 (s.begin op)
  s1.withRegs (s1.regs.putPair dst s1.fetched)

/-- The memory arm of the LD execute rule for an 8-bit source (R130), in a step that began in `start` with opcode `op` and
has resolved its operand in `now`: the low byte of the latched datum goes to the latched address. A write outside the window
is the fatal error `WriteViolation` (R42), and the step is undone (60_exceptions.md R162). -/
def storeFetched (op : Byte) (start now : State) : State :=
  match now.writeByte now.memDest (loByte now.fetched) with
  | .ok t => t
  | .error c => raise c (some op) start now

/-- `LD (rr),r` with opcode `op` (R134, R135, R136). -/
def storeReg (op : Byte) (ptr : PairReg) (src : GReg) (s : State) : State :=
  storeFetched op s (resolveMemReg ptr src (s.begin op))

/-- `LD B,B` (R131). -/
def execLdBB (s : State) : Host.Outcome State Fault Refusal :=
  .next (loadReg 0x40 .b .b s)

/-- `LD B,C` (R131). -/
def execLdBC (s : State) : Host.Outcome State Fault Refusal :=
  .next (loadReg 0x41 .b .c s)

/-- `LD B,D` (R131). -/
def execLdBD (s : State) : Host.Outcome State Fault Refusal :=
  .next (loadReg 0x42 .b .d s)

/-- `LD B,E` (R131). -/
def execLdBE (s : State) : Host.Outcome State Fault Refusal :=
  .next (loadReg 0x43 .b .e s)

/-- `LD B,H` (R131). -/
def execLdBH (s : State) : Host.Outcome State Fault Refusal :=
  .next (loadReg 0x44 .b .h s)

/-- `LD B,L` (R131). -/
def execLdBL (s : State) : Host.Outcome State Fault Refusal :=
  .next (loadReg 0x45 .b .l s)

/-- `LD B,A` (R131). -/
def execLdBA (s : State) : Host.Outcome State Fault Refusal :=
  .next (loadReg 0x47 .b .a s)

/-- `LD C,B` (R131). -/
def execLdCB (s : State) : Host.Outcome State Fault Refusal :=
  .next (loadReg 0x48 .c .b s)

/-- `LD C,C` (R131). -/
def execLdCC (s : State) : Host.Outcome State Fault Refusal :=
  .next (loadReg 0x49 .c .c s)

/-- `LD C,D` (R131). -/
def execLdCD (s : State) : Host.Outcome State Fault Refusal :=
  .next (loadReg 0x4A .c .d s)

/-- `LD C,E` (R131). -/
def execLdCE (s : State) : Host.Outcome State Fault Refusal :=
  .next (loadReg 0x4B .c .e s)

/-- `LD C,H` (R131). -/
def execLdCH (s : State) : Host.Outcome State Fault Refusal :=
  .next (loadReg 0x4C .c .h s)

/-- `LD C,L` (R131). -/
def execLdCL (s : State) : Host.Outcome State Fault Refusal :=
  .next (loadReg 0x4D .c .l s)

/-- `LD C,A` (R131). -/
def execLdCA (s : State) : Host.Outcome State Fault Refusal :=
  .next (loadReg 0x4F .c .a s)

/-- `LD D,B` (R131). -/
def execLdDB (s : State) : Host.Outcome State Fault Refusal :=
  .next (loadReg 0x50 .d .b s)

/-- `LD D,C` (R131). -/
def execLdDC (s : State) : Host.Outcome State Fault Refusal :=
  .next (loadReg 0x51 .d .c s)

/-- `LD D,D` (R131). -/
def execLdDD (s : State) : Host.Outcome State Fault Refusal :=
  .next (loadReg 0x52 .d .d s)

/-- `LD D,E` (R131). -/
def execLdDE (s : State) : Host.Outcome State Fault Refusal :=
  .next (loadReg 0x53 .d .e s)

/-- `LD D,H` (R131). -/
def execLdDH (s : State) : Host.Outcome State Fault Refusal :=
  .next (loadReg 0x54 .d .h s)

/-- `LD D,L` (R131). -/
def execLdDL (s : State) : Host.Outcome State Fault Refusal :=
  .next (loadReg 0x55 .d .l s)

/-- `LD D,A` (R131). -/
def execLdDA (s : State) : Host.Outcome State Fault Refusal :=
  .next (loadReg 0x57 .d .a s)

/-- `LD E,B` (R131). -/
def execLdEB (s : State) : Host.Outcome State Fault Refusal :=
  .next (loadReg 0x58 .e .b s)

/-- `LD E,C` (R131). -/
def execLdEC (s : State) : Host.Outcome State Fault Refusal :=
  .next (loadReg 0x59 .e .c s)

/-- `LD E,D` (R131). -/
def execLdED (s : State) : Host.Outcome State Fault Refusal :=
  .next (loadReg 0x5A .e .d s)

/-- `LD E,E` (R131). -/
def execLdEE (s : State) : Host.Outcome State Fault Refusal :=
  .next (loadReg 0x5B .e .e s)

/-- `LD E,H` (R131). -/
def execLdEH (s : State) : Host.Outcome State Fault Refusal :=
  .next (loadReg 0x5C .e .h s)

/-- `LD E,L` (R131). -/
def execLdEL (s : State) : Host.Outcome State Fault Refusal :=
  .next (loadReg 0x5D .e .l s)

/-- `LD E,A` (R131). -/
def execLdEA (s : State) : Host.Outcome State Fault Refusal :=
  .next (loadReg 0x5F .e .a s)

/-- `LD H,B` (R131). -/
def execLdHB (s : State) : Host.Outcome State Fault Refusal :=
  .next (loadReg 0x60 .h .b s)

/-- `LD H,C` (R131). -/
def execLdHC (s : State) : Host.Outcome State Fault Refusal :=
  .next (loadReg 0x61 .h .c s)

/-- `LD H,D` (R131). -/
def execLdHD (s : State) : Host.Outcome State Fault Refusal :=
  .next (loadReg 0x62 .h .d s)

/-- `LD H,E` (R131). -/
def execLdHE (s : State) : Host.Outcome State Fault Refusal :=
  .next (loadReg 0x63 .h .e s)

/-- `LD H,H` (R131). -/
def execLdHH (s : State) : Host.Outcome State Fault Refusal :=
  .next (loadReg 0x64 .h .h s)

/-- `LD H,L` (R131). -/
def execLdHL (s : State) : Host.Outcome State Fault Refusal :=
  .next (loadReg 0x65 .h .l s)

/-- `LD H,A` (R131). -/
def execLdHA (s : State) : Host.Outcome State Fault Refusal :=
  .next (loadReg 0x67 .h .a s)

/-- `LD L,B` (R131). -/
def execLdLB (s : State) : Host.Outcome State Fault Refusal :=
  .next (loadReg 0x68 .l .b s)

/-- `LD L,C` (R131). -/
def execLdLC (s : State) : Host.Outcome State Fault Refusal :=
  .next (loadReg 0x69 .l .c s)

/-- `LD L,D` (R131). -/
def execLdLD (s : State) : Host.Outcome State Fault Refusal :=
  .next (loadReg 0x6A .l .d s)

/-- `LD L,E` (R131). -/
def execLdLE (s : State) : Host.Outcome State Fault Refusal :=
  .next (loadReg 0x6B .l .e s)

/-- `LD L,H` (R131). -/
def execLdLH (s : State) : Host.Outcome State Fault Refusal :=
  .next (loadReg 0x6C .l .h s)

/-- `LD L,L` (R131). -/
def execLdLL (s : State) : Host.Outcome State Fault Refusal :=
  .next (loadReg 0x6D .l .l s)

/-- `LD L,A` (R131). -/
def execLdLA (s : State) : Host.Outcome State Fault Refusal :=
  .next (loadReg 0x6F .l .a s)

/-- `LD A,B` (R131). -/
def execLdAB (s : State) : Host.Outcome State Fault Refusal :=
  .next (loadReg 0x78 .a .b s)

/-- `LD A,C` (R131). -/
def execLdAC (s : State) : Host.Outcome State Fault Refusal :=
  .next (loadReg 0x79 .a .c s)

/-- `LD A,D` (R131). -/
def execLdAD (s : State) : Host.Outcome State Fault Refusal :=
  .next (loadReg 0x7A .a .d s)

/-- `LD A,E` (R131). -/
def execLdAE (s : State) : Host.Outcome State Fault Refusal :=
  .next (loadReg 0x7B .a .e s)

/-- `LD A,H` (R131). -/
def execLdAH (s : State) : Host.Outcome State Fault Refusal :=
  .next (loadReg 0x7C .a .h s)

/-- `LD A,L` (R131). -/
def execLdAL (s : State) : Host.Outcome State Fault Refusal :=
  .next (loadReg 0x7D .a .l s)

/-- `LD A,A` (R131). -/
def execLdAA (s : State) : Host.Outcome State Fault Refusal :=
  .next (loadReg 0x7F .a .a s)

/-- `LD B,d8` (R132). -/
def execLdBD8 (d8 : Byte) (s : State) : Host.Outcome State Fault Refusal :=
  .next (loadImm8 0x06 .b d8 s)

/-- `LD C,d8` (R132). -/
def execLdCD8 (d8 : Byte) (s : State) : Host.Outcome State Fault Refusal :=
  .next (loadImm8 0x0E .c d8 s)

/-- `LD D,d8` (R132). -/
def execLdDD8 (d8 : Byte) (s : State) : Host.Outcome State Fault Refusal :=
  .next (loadImm8 0x16 .d d8 s)

/-- `LD E,d8` (R132). -/
def execLdED8 (d8 : Byte) (s : State) : Host.Outcome State Fault Refusal :=
  .next (loadImm8 0x1E .e d8 s)

/-- `LD H,d8` (R132). -/
def execLdHD8 (d8 : Byte) (s : State) : Host.Outcome State Fault Refusal :=
  .next (loadImm8 0x26 .h d8 s)

/-- `LD L,d8` (R132). -/
def execLdLD8 (d8 : Byte) (s : State) : Host.Outcome State Fault Refusal :=
  .next (loadImm8 0x2E .l d8 s)

/-- `LD A,d8` (R132). -/
def execLdAD8 (d8 : Byte) (s : State) : Host.Outcome State Fault Refusal :=
  .next (loadImm8 0x3E .a d8 s)

/-- `LD BC,d16` (R133). -/
def execLdBcD16 (d16 : Word) (s : State) : Host.Outcome State Fault Refusal :=
  .next (loadImm16 0x01 .bc d16 s)

/-- `LD DE,d16` (R133). -/
def execLdDeD16 (d16 : Word) (s : State) : Host.Outcome State Fault Refusal :=
  .next (loadImm16 0x11 .de d16 s)

/-- `LD HL,d16` (R133). -/
def execLdHlD16 (d16 : Word) (s : State) : Host.Outcome State Fault Refusal :=
  .next (loadImm16 0x21 .hl d16 s)

/-- `LD SP,d16` (R133). -/
def execLdSpD16 (d16 : Word) (s : State) : Host.Outcome State Fault Refusal :=
  .next (loadImm16 0x31 .sp d16 s)

/-- `LD (BC),A` (R135). -/
def execLdIndBcA (s : State) : Host.Outcome State Fault Refusal :=
  .next (storeReg 0x02 .bc .a s)

/-- `LD (DE),A` (R136). -/
def execLdIndDeA (s : State) : Host.Outcome State Fault Refusal :=
  .next (storeReg 0x12 .de .a s)

/-- `LD (HL),B` (R134). -/
def execLdIndHlB (s : State) : Host.Outcome State Fault Refusal :=
  .next (storeReg 0x70 .hl .b s)

/-- `LD (HL),C` (R134). -/
def execLdIndHlC (s : State) : Host.Outcome State Fault Refusal :=
  .next (storeReg 0x71 .hl .c s)

/-- `LD (HL),D` (R134). -/
def execLdIndHlD (s : State) : Host.Outcome State Fault Refusal :=
  .next (storeReg 0x72 .hl .d s)

/-- `LD (HL),E` (R134). -/
def execLdIndHlE (s : State) : Host.Outcome State Fault Refusal :=
  .next (storeReg 0x73 .hl .e s)

/-- `LD (HL),H` (R134). -/
def execLdIndHlH (s : State) : Host.Outcome State Fault Refusal :=
  .next (storeReg 0x74 .hl .h s)

/-- `LD (HL),L` (R134). -/
def execLdIndHlL (s : State) : Host.Outcome State Fault Refusal :=
  .next (storeReg 0x75 .hl .l s)

/-- `LD (HL),A` (R134). -/
def execLdIndHlA (s : State) : Host.Outcome State Fault Refusal :=
  .next (storeReg 0x77 .hl .a s)

/-- `LD (HL+),A`: the store goes to the old HL (R137). -/
def execLdHliA (s : State) : Host.Outcome State Fault Refusal :=
  .next (storeFetched 0x22 s (resolveHlInc .a (s.begin 0x22)))

/-- `LD (HL-),A`: the store goes to the old HL (R138). -/
def execLdHldA (s : State) : Host.Outcome State Fault Refusal :=
  .next (storeFetched 0x32 s (resolveHlDec .a (s.begin 0x32)))

/-- `LD HL,SP+e8`: recognised and decoded, then the fatal error `UnimplementedMode`, before the byte `e8` is fetched
(R139, 40_engine.md R95). "A model must not give this opcode the real part's meaning". -/
def execLdHlSpE8 (_e8 : Byte) (s : State) : Host.Outcome State Fault Refusal :=
  .next (raise (.unimplemented (.unimplementedMode .hlSpr)) (some 0xF8) s (s.begin 0xF8))

end Sys2Proof.Machine
end

