-- ==== Sys2Proof/Machine/Nop.lean ====
section
/-! DEFINITION. `NOP` and the INVALID opcodes (41_nop_invalid.md). -/

namespace Sys2Proof.Machine

/-- `NOP`: nothing beyond the advance of PC that fetch makes (R110, R85). -/
def execNop (s : State) : Host.Outcome State Fault Refusal :=
  .next (s.begin 0x00)

/-- An INVALID opcode: the fatal error `UnknownOpcode`, raised in fetch before PC or an opcode latch is written
(R111, 40_engine.md R82). -/
def execInvalid (op : Byte) (s : State) : Host.Outcome State Fault Refusal :=
  .next (raise .unknownOpcode (some op) s s.clearLatches)

end Sys2Proof.Machine
end

