-- ==== Sys2Proof/Machine/Fetch.lean ====
section
/-! DEFINITION. Fetch and decode of the next instruction (40_engine.md R82, R83, R96), with the fatal errors a fetch can
raise. -/

namespace Sys2Proof.Machine

/-- `FetchByte()` (R96). -/
def fetchByte (s : State) : Except Cause (Byte × State) :=
  match s.readByte s.regs.pc with
  | .error c => .error c
  | .ok b => .ok (b, s.passOperand)

/-- What fetching operand bytes comes to: the bytes, or a fatal error and the state it was met in. -/
inductive Operands where
  | bytes (bs : List Byte)
  | stopped (c : Cause) (now : State)
deriving DecidableEq, Repr

/-- Fetches `n` operand bytes in address order (R96). -/
def fetchOperands (n : Nat) (s : State) : Operands :=
  match n with
  | 0 => .bytes []
  | n + 1 =>
    match fetchByte s with
    | .error c => .stopped c s
    | .ok (b, s1) =>
      match fetchOperands n s1 with
      | .bytes bs => .bytes (b :: bs)
      | .stopped c now => .stopped c now

/-- How many operand bytes the core reads, by addressing mode: those of the encoding (R61), but none for `AM_HL_SPR`, which
raises before it fetches any (R95, D29). -/
def fetchCount (m : Mode) : Nat :=
  match m with
  | .hlSpr => 0
  | .imp | .r | .rR | .rD8 | .rD16 | .d16 | .mrR | .hliR | .hldR | .rel8 => m.operandBytes

/-- The next instruction, or the state after a fatal error met while fetching it. -/
inductive Fetched where
  | instr (i : Instr)
  | raised (t : State)
deriving DecidableEq, Repr

/-- Fetches the instruction at PC: the opcode byte (an unreadable one raises with no opcode in the record), its descriptor,
then its operand bytes in order. An INVALID opcode reads no further byte (41_nop_invalid.md R111). Operand bytes that are
not fetched are given as 0; the one instruction that has such a byte does not use it (assumption 8). -/
def fetchInstr (s : State) : Fetched :=
  match s.readByte s.regs.pc with
  | .error c => .raised (raise c none s s.clearLatches)
  | .ok op =>
    match fetchOperands (fetchCount (itab op).mode) (s.begin op) with
    | .stopped c now => .raised (raise c (some op) s now)
    | .bytes bs => .instr (assemble op (bs.getD 0 0) (bs.getD 1 0))

end Sys2Proof.Machine
end

