-- ==== Sys2Proof/Machine/Step.lean ====
section
/-! DEFINITION. One step of the machine (40_engine.md R80), and where a step finds its next instruction. -/

namespace Sys2Proof.Machine

/-- `step()`. A halted core does not advance (60_exceptions.md R170). A state no launch may give is refused (R14, R5,
assumption 4). Otherwise the instruction at PC is fetched and run, and a fatal error met while fetching is taken (R162). -/
def step (s : State) : Host.Outcome State Fault Refusal :=
  if s.halted then .next s
  else if s.legal then
    match fetchInstr s with
    | .raised t => .next t
    | .instr i => exec i s
  else .refused .illegalLaunchState

/-- The state with the bytes of a table word placed at PC, as the collaborator that supplies the image or the window would
(assumption 9). -/
def State.withFetchWord (s : State) (nbits w : Nat) : State :=
  { s with mem := s.mem.place s.regs.pc (tableBytes nbits w) }

end Sys2Proof.Machine
end

