-- ==== Sys2Proof/Machine/Engine.lean ====
section
/-! DEFINITION. The mechanism of 40_engine.md over ANY Instruction Table: "the rules here are written over descriptors, not
over opcode values, and hold for any `ITAB`". It is written beside the meanings of `exec`, from the rules R80 to R98, R130 and
R152, and is stated to agree with them on the default table. Only here can the causes be met that the default table cannot
reach (60_exceptions.md R163), and the 16-bit store (R130, D26). -/

namespace Sys2Proof.Machine

/-- Where a phase of a step ends: it is done, or a fatal error was raised with this opcode in hand. -/
inductive Phase where
  | done (s : State)
  | raised (c : Cause) (op : Option Byte) (s : State)
deriving DecidableEq, Repr

/-- Raises a cause of class (b) in a phase after fetch. -/
def Phase.fail (sub : SubCause) (s : State) : Phase := .raised (.unimplemented sub) (some s.curOpcode) s

/-- Goes on with the value of a register or memory operation, or raises what it raised. -/
def Phase.andThen {α : Type} (x : Except Cause α) (s : State) (k : α → Phase) : Phase :=
  match x with
  | .ok v => k v
  | .error c => .raised c (some s.curOpcode) s

/-- `Fetch()` (R82), from a state whose latches are cleared. -/
def enginePhaseFetch (tab : Byte → Descriptor) (s : State) : Phase :=
  match s.readByte s.regs.pc with
  | .error c => .raised c none s
  | .ok op =>
    if (tab op).kind = .invalid then .raised .unknownOpcode (some op) s
    else .done (s.latchOpcode op (tab op))

/-- `fetched <- zext16(FetchByte())` (R88, R94). -/
def engineImm8 (s : State) : Phase :=
  Phase.andThen (fetchByte s) s fun p => .done (p.2.latchFetched (zext16 p.1))

/-- `lo <- FetchByte(); hi <- FetchByte(); fetched <- hi:lo` (R89, R90). -/
def engineImm16 (s : State) : Phase :=
  Phase.andThen (fetchByte s) s fun lo =>
    Phase.andThen (fetchByte lo.2) lo.2 fun hi => .done (hi.2.latchFetched (wordOf hi.1 lo.1))

/-- Datum from `reg2`, destination address from `ptr` (R91). -/
def engineMemDest (ptr reg2 : RegName) (s : State) : Phase :=
  Phase.andThen (readReg s.regs reg2) s fun v =>
    Phase.andThen (readReg s.regs ptr) s fun a => .done ((s.latchFetched v).latchDest a)

/-- Adds `delta` to HL after the destination is latched (R92, R93). -/
def engineStepHl (delta : Word) (p : Phase) : Phase :=
  match p with
  | .raised c op s => .raised c op s
  | .done s => .done (s.withRegs (s.regs.putPair .hl (s.regs.getPair .hl + delta)))

/-- `ResolveOperand(d)` (R84): exactly one of R85 to R95, chosen by the mode. -/
def enginePhaseResolve (d : Descriptor) (s : State) : Phase :=
  match d.mode with
  | .imp => .done s
  | .r => Phase.andThen (readReg s.regs d.reg1) s fun v => .done (s.latchFetched v)
  | .rR => Phase.andThen (readReg s.regs d.reg2) s fun v => .done (s.latchFetched v)
  | .rD8 => engineImm8 s
  | .rD16 => engineImm16 s
  | .d16 => engineImm16 s
  | .mrR => engineMemDest d.reg1 d.reg2 s
  | .hliR => engineStepHl 1 (engineMemDest .hl d.reg2 s)
  | .hldR => engineStepHl (-1) (engineMemDest .hl d.reg2 s)
  | .rel8 => engineImm8 s
  | .hlSpr => Phase.fail (.unimplementedMode .hlSpr) s

/-- Execute of the kind `DEC` (R120, R98). -/
def engineDec (d : Descriptor) (s : State) : Phase :=
  if d.mode = .r ∧ isReg8 d.reg1 then
    let v := loByte s.fetched
    Phase.andThen (writeReg s.regs d.reg1 (zext16 (v - 1))) s fun x =>
      .done (s.withRegs (x.setF (decFlags v x.f)))
  else Phase.fail (.unimplementedCombination .dec) s

/-- Execute of the kind `XOR` (R121, R98). -/
def engineXor (d : Descriptor) (s : State) : Phase :=
  if d.mode = .r ∧ isReg8 d.reg1 then
    let res := s.regs.a ^^^ loByte s.fetched
    Phase.andThen (writeReg s.regs .a (zext16 res)) s fun x =>
      .done (s.withRegs (x.setF (xorFlags res x.f)))
  else Phase.fail (.unimplementedCombination .xor) s

/-- The memory arm of the kind `LD`: the 16-bit helper when the source register is 16-bit, the 8-bit write otherwise (R130). -/
def engineStore (d : Descriptor) (s : State) : Phase :=
  Phase.andThen
    (if isReg16 d.reg2 then s.writeWord s.memDest s.fetched else s.writeByte s.memDest (loByte s.fetched)) s .done

/-- The register arm of the kind `LD` (R130). -/
def engineLoad (d : Descriptor) (s : State) : Phase :=
  Phase.andThen (writeReg s.regs d.reg1 s.fetched) s fun x => .done (s.withRegs x)

/-- Execute of the kind `LD` (R130); a mode outside the list of R98 has no handler (assumption 11). -/
def engineLd (d : Descriptor) (s : State) : Phase :=
  match d.mode with
  | .hlSpr => Phase.fail (.unimplementedMode .hlSpr) s
  | .rR | .rD8 | .rD16 | .mrR | .hliR | .hldR => if s.destIsMem then engineStore d s else engineLoad d s
  | .imp | .r | .d16 | .rel8 => Phase.fail (.unimplementedCombination .ld) s

/-- The relative jump (R151). -/
def engineJr (cc : Cond) (s : State) : Phase :=
  .done (if condHolds cc s.regs.f then s.jumpTo (s.regs.pc + sext16 (loByte s.fetched)) else s)

/-- Execute of the kind `JP`: R150, R151, and R152 for every other pair of mode and condition. -/
def engineJp (d : Descriptor) (s : State) : Phase :=
  match d.mode, d.cond with
  | .d16, some .always => .done (s.jumpTo s.fetched)
  | .rel8, some .nz => engineJr .nz s
  | .rel8, some .z => engineJr .z s
  | .rel8, some .nc => engineJr .nc s
  | .rel8, some .c => engineJr .c s
  | _, _ => Phase.fail (.unimplementedCombination .jp) s

/-- `Execute(d)` (R97). `INVALID` cannot reach execute: fetch raised. -/
def enginePhaseExecute (d : Descriptor) (s : State) : Phase :=
  match d.kind with
  | .nop => .done s
  | .dec => engineDec d s
  | .xor => engineXor d s
  | .ld => engineLd d s
  | .jp => engineJp d s
  | .invalid => Phase.fail (.unimplementedKind .invalid) s
  | .other k => Phase.fail (.unimplementedKind (.other k)) s

/-- The three phases "always executed in order when not halted" (R80), with the descriptor latched by fetch. -/
def enginePhases (tab : Byte → Descriptor) (s : State) : Phase :=
  match enginePhaseFetch tab s.clearLatches with
  | .raised c op s1 => .raised c op s1
  | .done s1 =>
    match enginePhaseResolve s1.curInst s1 with
    | .raised c op s2 => .raised c op s2
    | .done s2 => enginePhaseExecute s2.curInst s2

/-- `step()` over the table `tab` (R80), on a legal state. -/
def engineStep (tab : Byte → Descriptor) (s : State) : State :=
  if s.halted then s
  else
    match enginePhases tab s with
    | .done t => t
    | .raised c op now => raise c op s now

end Sys2Proof.Machine
end

