-- ==== Sys2Proof/Machine/Outputs.lean ====
section
/-! DEFINITION. What a step gives the host beside the next state, as functions of the state (10_state.md R32,
assumption 12): the Boolean result, the trace record, and the Interpreter Loop (70_reset_and_hazards.md R186, R187). -/

namespace Sys2Proof.Machine

/-- The result of the `step()` that ended in `t`: true exactly when it left the core running (R80: "false exactly when
halted"). -/
def stepReturns (t : State) : Bool := !t.halted

/-- The trace record the step from `s` emits: one for each successfully decoded instruction, emitted before operand
resolution, so an instruction that later faults has one and an unknown opcode has none (R176, R82, D22). -/
def traceRecord (s : State) : Option TraceRecord :=
  if s.halted || !s.legal then none
  else
    match s.readByte s.regs.pc with
    | .error _ => none
    | .ok op =>
      if (itab op).kind = .invalid then none
      else some ⟨s.regs.pc, op, (itab op).mnemonic⟩

/-- The Interpreter Loop, which "repeatedly steps the CPU Core until halted", cut off after at most `fuel` steps (the host "may
stop calling step() at any point", R186). -/
def interpret (fuel : Nat) (s : State) : Host.Outcome State Fault Refusal :=
  match fuel with
  | 0 => .next s
  | k + 1 =>
    match step s with
    | .next t => if stepReturns t then interpret k t else .next t
    | .fault r => .fault r
    | .refused r => .refused r

end Sys2Proof.Machine
end

