-- ==== Sys2Proof/Safety.lean ====
section
/-! DEFINITION. What a run must keep and what a safe run is, in the terms the statements use. -/

namespace Sys2Proof.Machine

/-- The invariant of every run: the state is legal (the low nibble of F is zero, R14; the parameters meet R5), memory is in
canonical form, the core is halted exactly when a fault is recorded (R18, R162), and there is no tally when cycles are not
counted (R33). -/
def State.Inv (s : State) : Prop :=
  s.legal = true ∧ s.mem.wf = true ∧ s.halted = s.fault.isSome ∧ (s.cfg.countCycles = false → s.cycles = 0)

/-- A run of `k` steps in which no fault is recorded: "a claim about a program should take no fault recorded as a premise or
prove it" (60_exceptions.md R162). -/
def SafeRun (k : Nat) (s : State) : Prop :=
  ∃ t, Sys2Proof.core.run k s = .next t ∧ t.halted = false ∧ t.fault = none

/-- Every byte of memory reads as before. -/
def SameBytes (s t : State) : Prop := ∀ a : Word, t.readByte a = s.readByte a

/-- The parameters, the halted flag and the fault record are as before. -/
def SameControl (s t : State) : Prop := t.cfg = s.cfg ∧ t.halted = s.halted ∧ t.fault = s.fault

/-- `t` is the state after a step from `s` that raised `cause` with opcode `op` (R162): registers, SP and PC as before, every
byte of memory as before, halted, and the record written if there was none. -/
def Raised (cause : Cause) (op : Option Byte) (s t : State) : Prop :=
  t.regs = s.regs ∧ SameBytes s t ∧ t.cfg = s.cfg ∧ t.halted = true ∧
  t.fault = some (s.fault.getD ⟨cause, s.regs.pc, op⟩)

/-- The address an instruction stores its one byte to, read off the state before the step (43_ld.md R134 to R138): the pointer
register, for the auto-modify forms the old HL. `none` for a form that stores nothing. -/
def storeAddress (i : Instr) (s : State) : Option Word :=
  match i with
  | .ldIndHlB | .ldIndHlC | .ldIndHlD | .ldIndHlE | .ldIndHlH | .ldIndHlL | .ldIndHlA => some (s.regs.getPair .hl)
  | .ldHliA | .ldHldA => some (s.regs.getPair .hl)
  | .ldIndBcA => some (s.regs.getPair .bc)
  | .ldIndDeA => some (s.regs.getPair .de)
  | _ => none

/-- The byte an instruction stores, read off the state before the step (43_ld.md R134 to R138): its source register. `none` for a
form that stores nothing. -/
def storeByte (i : Instr) (s : State) : Option Byte :=
  match i with
  | .ldIndHlB => some s.regs.b
  | .ldIndHlC => some s.regs.c
  | .ldIndHlD => some s.regs.d
  | .ldIndHlE => some s.regs.e
  | .ldIndHlH => some s.regs.h
  | .ldIndHlL => some s.regs.l
  | .ldIndHlA => some s.regs.a
  | .ldHliA | .ldHldA | .ldIndBcA | .ldIndDeA => some s.regs.a
  | _ => none

/-- The state with its latches dropped: two states that differ only in latches behave the same (10_state.md R26). -/
def State.forgetLatches (s : State) : State :=
  { s with curOpcode := 0, curInst := Descriptor.invalid, fetched := 0, memDest := 0, destIsMem := false }

end Sys2Proof.Machine
end

