-- ==== Sys2Proof/Certificates/Slice0/Obligations.lean ====
section
/-! DEFINITION. The statements for the provers, each from the rules of spec/ its docstring names. -/

namespace Sys2Proof.Slice0

open Sys2Proof.Machine

/-- The register codes of 30_encoding.md R62: B=0, C=1, D=2, E=3, H=4, L=5, A=7. -/
def regCode : GReg → Nat
  | .b => 0
  | .c => 1
  | .d => 2
  | .e => 3
  | .h => 4
  | .l => 5
  | .a => 7

/-- The pair codes of R62: BC=0, DE=1, HL=2, SP=3. -/
def pairCode : PairReg → Nat
  | .bc => 0
  | .de => 1
  | .hl => 2
  | .sp => 3

/-- The tally after an instruction with `n` operand bytes (10_state.md R33, 70_reset_and_hazards.md R195). -/
def tally (n : Nat) (s : State) : Nat := bif s.cfg.countCycles then s.cycles + n else s.cycles

/-- The operand registers other than those `keep` excludes are as before, and SP is. -/
def SameRegsBut (changed : GReg → Prop) (s t : State) : Prop :=
  (∀ q, ¬ changed q → t.regs.get q = s.regs.get q) ∧ t.regs.sp = s.regs.sp

/-- A store of the byte `v` to the address `a` (20_memory.md R42): `a` then reads `v`, every other address reads as before. -/
def Stored (a : Word) (v : Byte) (s t : State) : Prop :=
  t.readByte a = .ok v ∧ ∀ x, x ≠ a → t.readByte x = s.readByte x

/-- The core is running in a state a launch may give. -/
def Running (s : State) : Prop := s.halted = false ∧ s.legal = true

/-- Byte `k` after PC (the address wraps as PC does, 10_state.md R13). -/
def byteAddress (s : State) (k : Nat) : Word := s.regs.pc + BitVec.ofNat 16 k

/-- "Faults: faults of fetch only" (41_nop_invalid.md, the template of every instruction rule): where the bytes of `i` stand at PC
the step is `exec i`; where byte `k` of them is unreadable and those before it stand there, the step is the fatal error
`UnmappedRead` with that byte's address. -/
def FaultsOfFetchOnly (i : Instr) (s : State) : Prop :=
  Running s →
    ((∀ k b, (encode i)[k]? = some b → s.readByte (byteAddress s k) = .ok b) → step s = exec i s) ∧
    (∀ k, k < (encode i).length → (∀ j b, j < k → (encode i)[j]? = some b → s.readByte (byteAddress s j) = .ok b) →
      readable s.cfg (byteAddress s k) = false →
      ∃ t, step s = .next t ∧
        Raised (.unimplemented (.unmappedRead (byteAddress s k))) (if k = 0 then none else some i.opcode) s t)

/-- Operand resolution of `d` ends, in a step from `s` (40_engine.md R85 to R95): the registers its mode reads are real and the operand
bytes it fetches are readable; `AM_HL_SPR` never ends. -/
def Resolves (d : Descriptor) (s : State) : Prop :=
  match d.mode with
  | .imp => True
  | .r => d.reg1 ≠ .noReg
  | .rR | .hliR | .hldR => d.reg2 ≠ .noReg
  | .mrR => d.reg1 ≠ .noReg ∧ d.reg2 ≠ .noReg
  | .rD8 | .rel8 => readable s.cfg (byteAddress s 1) = true
  | .rD16 | .d16 => readable s.cfg (byteAddress s 1) = true ∧ readable s.cfg (byteAddress s 2) = true
  | .hlSpr => False

/-- A relative jump with opcode `op`, taken or not (44_jp_jr.md R151). -/
def JrResult (i : Instr) (op : Byte) (e8 : Byte) (taken : Bool) (s : State) : Prop :=
  encode i = [op, e8] ∧
  ∃ t, exec i s = .next t ∧
    t.regs = { s.regs with pc := if taken then s.regs.pc + 2 + e8.signExtend 16 else s.regs.pc + 2 } ∧
    SameBytes s t ∧ SameControl s t ∧ t.cycles = tally 1 s ∧ FaultsOfFetchOnly i s

/-- A store through a pointer (43_ld.md R134 to R138): `a` is the latched address, `x` the register file after the step. In the
window the byte is stored; elsewhere the step is the fatal error `WriteViolation`. -/
def StoreResult (i : Instr) (op : Byte) (a : Word) (v : Byte) (x : RegFile) (s : State) : Prop :=
  encode i = [op] ∧ FaultsOfFetchOnly i s ∧
  (region s.cfg a = .ram →
    ∃ t, exec i s = .next t ∧ t.regs = x ∧ Stored a v s t ∧ SameControl s t ∧ t.cycles = s.cycles) ∧
  (region s.cfg a ≠ .ram →
    ∃ t, exec i s = .next t ∧ Raised (.unimplemented (.writeViolation a)) (some op) s t)

end Sys2Proof.Slice0

open Sys2Proof Sys2Proof.Machine Sys2Proof.Slice0

/-! ### The step -/

/-- 40_engine.md R80, R82, R83: when the bytes at PC are readable and decode to `i`, the step is `exec i`. `exec` itself moves
PC past the instruction; the step adds nothing around it. -/
def Obligations.StepRunsDecodedInstruction : Prop :=
  ∀ (s : State) (i : Instr) (bytes rest : List Byte), Running s → decode bytes = .ok (i, rest) →
    (∀ k b, bytes[k]? = some b → s.readByte (s.regs.pc + BitVec.ofNat 16 k) = .ok b) →
    step s = exec i s

/-- 60_exceptions.md R170: a halted step changes no state, emits no trace and returns false, over any number of steps; and a running
core becomes halted only by a fatal error, which is recorded (R162). -/
def Obligations.HaltedCoreStaysAsItIs : Prop :=
  (∀ s : State, s.halted = true → step s = .next s ∧ traceRecord s = none ∧ stepReturns s = false ∧
    ∀ k : Nat, Sys2Proof.core.run k s = .next s) ∧
  (∀ s t : State, s.halted = false → step s = .next t → t.halted = true →
    ∃ c op, Raised c op s t)

/-- 93_implementation_defined.md, section 1: every non-halted state has exactly one outcome, the next state; and U8: a launch
state that R14 or R5 forbids is refused (the model's own check, log entry 4). -/
def Obligations.StepAnswersOnEveryLegalState : Prop :=
  ∀ s : State, (s.legal = true → ∃ t, step s = .next t) ∧
    (s.halted = false → s.legal = false → step s = .refused .illegalLaunchState)

/-- 40_engine.md R82, 20_memory.md R41, 60_exceptions.md R162: an unreadable opcode byte is the fatal error
`UnmappedRead` at PC, with no opcode in the record. -/
def Obligations.UnreadableOpcodeRaises : Prop :=
  ∀ s : State, Running s → readable s.cfg s.regs.pc = false →
    ∃ t, step s = .next t ∧ Raised (.unimplemented (.unmappedRead s.regs.pc)) none s t ∧ t.cycles = s.cycles

/-- R96, R165: operand bytes are read in address order after the opcode byte; the first unreadable one is the fatal error
`UnmappedRead` with that byte's address, and the PC, already past the bytes read, is undone. -/
def Obligations.UnreadableOperandRaises : Prop :=
  ∀ (s : State) (op : Byte), Running s → s.readByte s.regs.pc = .ok op → (itab op).mode ≠ .hlSpr →
    (1 ≤ (itab op).mode.operandBytes → readable s.cfg (s.regs.pc + 1) = false →
      ∃ t, step s = .next t ∧ Raised (.unimplemented (.unmappedRead (s.regs.pc + 1))) (some op) s t) ∧
    (2 ≤ (itab op).mode.operandBytes → readable s.cfg (s.regs.pc + 1) = true → readable s.cfg (s.regs.pc + 2) = false →
      ∃ t, step s = .next t ∧ Raised (.unimplemented (.unmappedRead (s.regs.pc + 2))) (some op) s t)

/-! ### NOP and INVALID -/

/-- 41_nop_invalid.md R110. -/
def Obligations.NopOnlyAdvancesPc : Prop :=
  encode .nop = [0x00] ∧
  ∀ s : State, ∃ t, exec .nop s = .next t ∧ t.regs = { s.regs with pc := s.regs.pc + 1 } ∧
    SameBytes s t ∧ SameControl s t ∧ t.cycles = s.cycles ∧ FaultsOfFetchOnly .nop s

/-- 41_nop_invalid.md R111: an INVALID opcode is the fatal error `UnknownOpcode` with the byte and its address, PC stays, no
byte after the opcode is read (whatever stands there, readable or not), the result of the step is false and there is no trace
record. -/
def Obligations.InvalidOpcodeRaises : Prop :=
  ∀ (s : State) (op : Byte),
    (∃ t, exec (.invalid op) s = .next t ∧ Raised .unknownOpcode (some op) s t) ∧
    (Running s → isInvalidOpcode op = true → s.readByte s.regs.pc = .ok op →
      traceRecord s = none ∧
      ∃ t, step s = .next t ∧ Raised .unknownOpcode (some op) s t ∧ stepReturns t = false)

/-! ### DEC and XOR -/

/-- 42_alu_dec_xor.md R120: result, flags and frame of `DEC r` for all seven registers, and the fatal error of a `DEC` descriptor
on a 16-bit register in the engine. -/
def Obligations.DecResultFlagsAndFrame : Prop :=
  (∀ (r : GReg) (s : State),
    encode (Instr.decOf r) = [BitVec.ofNat 8 (8 * regCode r + 5)] ∧
    ∃ t, exec (Instr.decOf r) s = .next t ∧
      (t.regs.get r).toNat = ((s.regs.get r).toNat + 255) % 256 ∧
      flagZ t.regs.f = decide ((t.regs.get r).toNat = 0) ∧
      flagN t.regs.f = true ∧
      flagH t.regs.f = decide ((s.regs.get r).toNat % 16 = 0) ∧
      flagC t.regs.f = flagC s.regs.f ∧
      t.regs.f &&& 0x0F = s.regs.f &&& 0x0F ∧
      SameRegsBut (· = r) s t ∧ t.regs.pc = s.regs.pc + 1 ∧
      SameBytes s t ∧ SameControl s t ∧ t.cycles = s.cycles ∧ FaultsOfFetchOnly (Instr.decOf r) s) ∧
  (∀ (d : Descriptor) (s : State), d.kind = .dec → d.mode = .r → isReg16 d.reg1 = true →
    enginePhaseExecute d s = .raised (.unimplemented (.unimplementedCombination .dec)) (some s.curOpcode) s)

/-- 42_alu_dec_xor.md R121: result, flags and frame of `XOR A,r` for all seven registers, and the fatal error of an `XOR`
descriptor on a 16-bit register in the engine. -/
def Obligations.XorResultFlagsAndFrame : Prop :=
  (∀ (r : GReg) (s : State),
    encode (Instr.xorOf r) = [BitVec.ofNat 8 (0xA8 + regCode r)] ∧
    ∃ t, exec (Instr.xorOf r) s = .next t ∧
      (∀ k, t.regs.a.getLsbD k = (s.regs.a.getLsbD k).xor ((s.regs.get r).getLsbD k)) ∧
      flagZ t.regs.f = decide (t.regs.a.toNat = 0) ∧
      flagN t.regs.f = false ∧ flagH t.regs.f = false ∧ flagC t.regs.f = false ∧
      t.regs.f &&& 0x0F = s.regs.f &&& 0x0F ∧
      SameRegsBut (· = .a) s t ∧ t.regs.pc = s.regs.pc + 1 ∧
      SameBytes s t ∧ SameControl s t ∧ t.cycles = s.cycles ∧ FaultsOfFetchOnly (Instr.xorOf r) s) ∧
  (∀ (d : Descriptor) (s : State), d.kind = .xor → d.mode = .r → isReg16 d.reg1 = true →
    enginePhaseExecute d s = .raised (.unimplemented (.unimplementedCombination .xor)) (some s.curOpcode) s)

/-- R121 and property S3 of 95_test_vectors.md: `XOR A,A` leaves zero in A and exactly 0x80 in F, in every legal state. -/
def Obligations.XorSelfGivesZeroAndZeroFlag : Prop :=
  ∀ s : State, s.legal = true →
    ∃ t, exec .xorA s = .next t ∧ t.regs = { s.regs with a := 0, f := 0x80, pc := s.regs.pc + 1 }

/-! ### LD -/

/-- 43_ld.md R131: `LD r,r'`, all 49. -/
def Obligations.LoadRegisterFromRegister : Prop :=
  ∀ (dst src : GReg) (s : State),
    encode (Instr.ldOf dst src) = [BitVec.ofNat 8 (0x40 + 8 * regCode dst + regCode src)] ∧
    ∃ t, exec (Instr.ldOf dst src) s = .next t ∧
      t.regs.get dst = s.regs.get src ∧ SameRegsBut (· = dst) s t ∧
      t.regs.f = s.regs.f ∧ t.regs.pc = s.regs.pc + 1 ∧
      SameBytes s t ∧ SameControl s t ∧ t.cycles = s.cycles ∧ FaultsOfFetchOnly (Instr.ldOf dst src) s

/-- 43_ld.md R132: `LD r,d8`, all 7. -/
def Obligations.LoadRegisterImmediate : Prop :=
  ∀ (dst : GReg) (d8 : Byte) (s : State),
    encode (Instr.ldImmOf dst d8) = [BitVec.ofNat 8 (8 * regCode dst + 6), d8] ∧
    ∃ t, exec (Instr.ldImmOf dst d8) s = .next t ∧
      t.regs.get dst = d8 ∧ SameRegsBut (· = dst) s t ∧
      t.regs.f = s.regs.f ∧ t.regs.pc = s.regs.pc + 2 ∧
      SameBytes s t ∧ SameControl s t ∧ t.cycles = tally 1 s ∧ FaultsOfFetchOnly (Instr.ldImmOf dst d8) s

/-- 43_ld.md R133: `LD rr,d16`, all 4; the operand's low byte is the second byte of the instruction. -/
def Obligations.LoadPairImmediate : Prop :=
  ∀ (rr : PairReg) (d16 : Word) (s : State),
    encode (Instr.ldPairOf rr d16) =
      [BitVec.ofNat 8 (16 * pairCode rr + 1), d16.extractLsb' 0 8, d16.extractLsb' 8 8] ∧
    ∃ t, exec (Instr.ldPairOf rr d16) s = .next t ∧
      t.regs.getPair rr = d16 ∧ (∀ q, q ≠ rr → t.regs.getPair q = s.regs.getPair q) ∧
      t.regs.a = s.regs.a ∧ t.regs.f = s.regs.f ∧ t.regs.pc = s.regs.pc + 3 ∧
      SameBytes s t ∧ SameControl s t ∧ t.cycles = tally 2 s ∧ FaultsOfFetchOnly (Instr.ldPairOf rr d16) s

/-- 43_ld.md R134: `LD (HL),r`, all 7, stored or `WriteViolation`. HL is not modified. -/
def Obligations.StoreThroughHl : Prop :=
  ∀ (r : GReg) (s : State),
    StoreResult (Instr.ldIndHlOf r) (BitVec.ofNat 8 (0x70 + regCode r)) (s.regs.getPair .hl) (s.regs.get r)
      { s.regs with pc := s.regs.pc + 1 } s

/-- 43_ld.md R135, R136: `LD (BC),A` and `LD (DE),A`. The pointer is not modified. -/
def Obligations.StoreThroughBcAndDe : Prop :=
  ∀ s : State,
    StoreResult .ldIndBcA 0x02 (wordOf s.regs.b s.regs.c) s.regs.a { s.regs with pc := s.regs.pc + 1 } s ∧
    StoreResult .ldIndDeA 0x12 (wordOf s.regs.d s.regs.e) s.regs.a { s.regs with pc := s.regs.pc + 1 } s

/-- 43_ld.md R137, R138: `LD (HL+),A` and `LD (HL-),A` store at the old HL and leave it one up or one down modulo 2^16; where the
store raises, HL keeps its value. -/
def Obligations.StoreAndStepHl : Prop :=
  ∀ s : State,
    StoreResult .ldHliA 0x22 (s.regs.getPair .hl) s.regs.a
      ({ s.regs with pc := s.regs.pc + 1 }.putPair .hl (s.regs.getPair .hl + 1)) s ∧
    StoreResult .ldHldA 0x32 (s.regs.getPair .hl) s.regs.a
      ({ s.regs with pc := s.regs.pc + 1 }.putPair .hl (s.regs.getPair .hl - 1)) s

/-- 43_ld.md R139: `LD HL,SP+e8` is decoded (there is a trace record) and is the fatal error `UnimplementedMode`, whether or not
the byte after the opcode is readable. -/
def Obligations.LoadHlSpOffsetRaises : Prop :=
  (∀ e8, encode (.ldHlSpE8 e8) = [0xF8, e8]) ∧
  (∀ (e8 : Byte) (s : State), ∃ t, exec (.ldHlSpE8 e8) s = .next t ∧
    Raised (.unimplemented (.unimplementedMode .hlSpr)) (some 0xF8) s t) ∧
  (∀ s : State, Running s → s.readByte s.regs.pc = .ok 0xF8 →
    traceRecord s = some ⟨s.regs.pc, 0xF8, "LD HL,SP+e8"⟩ ∧
    ∃ t, step s = .next t ∧ Raised (.unimplemented (.unimplementedMode .hlSpr)) (some 0xF8) s t)

/-! ### Control transfer -/

/-- 44_jp_jr.md R150: `JP a16` sets PC to the target, which is not checked. -/
def Obligations.JumpAbsoluteSetsPc : Prop :=
  ∀ (a16 : Word) (s : State),
    encode (.jpA16 a16) = [0xC3, a16.extractLsb' 0 8, a16.extractLsb' 8 8] ∧
    ∃ t, exec (.jpA16 a16) s = .next t ∧ t.regs = { s.regs with pc := a16 } ∧
      SameBytes s t ∧ SameControl s t ∧ t.cycles = tally 2 s ∧ FaultsOfFetchOnly (.jpA16 a16) s

/-- 44_jp_jr.md R151: `JR cc,e8` for its four conditions, taken and not taken; flags are read and never written. -/
def Obligations.JumpRelativeOnCondition : Prop :=
  ∀ (e8 : Byte) (s : State),
    JrResult (.jrNz e8) 0x20 e8 (!s.regs.f.getLsbD 7) s ∧
    JrResult (.jrZ e8) 0x28 e8 (s.regs.f.getLsbD 7) s ∧
    JrResult (.jrNc e8) 0x30 e8 (!s.regs.f.getLsbD 4) s ∧
    JrResult (.jrC e8) 0x38 e8 (s.regs.f.getLsbD 4) s

/-- 44_jp_jr.md R153: control transfer is the sequential advance of PC by the instruction length, `JP a16` and `JR cc,e8`: an
instruction of another kind that does not raise leaves PC past itself. -/
def Obligations.OnlyJumpsLeaveTheSequence : Prop :=
  ∀ (i : Instr) (s t : State), s.halted = false → exec i s = .next t → t.halted = false →
    (∀ a, i ≠ .jpA16 a) → (∀ e, i ≠ .jrNz e ∧ i ≠ .jrZ e ∧ i ≠ .jrNc e ∧ i ≠ .jrC e) →
    t.regs.pc = s.regs.pc + BitVec.ofNat 16 i.length

/-! ### Registers, flags and memory -/

/-- 10_state.md R20: the value of a register read, for each of the fifteen names. -/
def Obligations.RegisterReadWidensAndPairs : Prop :=
  ∀ x : RegFile,
    readReg x .a = .ok (0#8 ++ x.a) ∧ readReg x .f = .ok (0#8 ++ x.f) ∧ readReg x .b = .ok (0#8 ++ x.b) ∧
    readReg x .c = .ok (0#8 ++ x.c) ∧ readReg x .d = .ok (0#8 ++ x.d) ∧ readReg x .e = .ok (0#8 ++ x.e) ∧
    readReg x .h = .ok (0#8 ++ x.h) ∧ readReg x .l = .ok (0#8 ++ x.l) ∧
    readReg x .af = .ok (x.a ++ x.f) ∧ readReg x .bc = .ok (x.b ++ x.c) ∧ readReg x .de = .ok (x.d ++ x.e) ∧
    readReg x .hl = .ok (x.h ++ x.l) ∧ readReg x .sp = .ok x.sp ∧ readReg x .pc = .ok x.pc ∧
    readReg x .noReg = .error (.unimplemented (.unsupportedRegister .noReg))

/-- 10_state.md R21: a register write masks to the register's width, splits over a pair, clears the low nibble of F, and changes
nothing else; writing `NONE` raises. -/
def Obligations.RegisterWriteMasksAndSplits : Prop :=
  ∀ (x : RegFile) (v : Word),
    writeReg x .a v = .ok { x with a := v.setWidth 8 } ∧ writeReg x .b v = .ok { x with b := v.setWidth 8 } ∧
    writeReg x .c v = .ok { x with c := v.setWidth 8 } ∧ writeReg x .d v = .ok { x with d := v.setWidth 8 } ∧
    writeReg x .e v = .ok { x with e := v.setWidth 8 } ∧ writeReg x .h v = .ok { x with h := v.setWidth 8 } ∧
    writeReg x .l v = .ok { x with l := v.setWidth 8 } ∧
    writeReg x .f v = .ok { x with f := v.setWidth 8 &&& 0xF0 } ∧
    writeReg x .bc v = .ok { x with b := (v >>> 8).setWidth 8, c := v.setWidth 8 } ∧
    writeReg x .de v = .ok { x with d := (v >>> 8).setWidth 8, e := v.setWidth 8 } ∧
    writeReg x .hl v = .ok { x with h := (v >>> 8).setWidth 8, l := v.setWidth 8 } ∧
    writeReg x .af v = .ok { x with a := (v >>> 8).setWidth 8, f := v.setWidth 8 &&& 0xF0 } ∧
    writeReg x .sp v = .ok { x with sp := v } ∧ writeReg x .pc v = .ok { x with pc := v } ∧
    writeReg x .noReg v = .error (.unimplemented (.unsupportedRegister .noReg))

/-- 10_state.md R22: each argument of `SetFlags` sets, clears or keeps its own bit (R15), and bits 3..0 keep their value. -/
def Obligations.SetFlagsWritesOnlyNamedBits : Prop :=
  (∀ b, b2f b = if b then FlagArg.set else FlagArg.clear) ∧
  ∀ (z n h c : FlagArg) (f : Byte),
    let new (arg : FlagArg) (old : Bool) : Bool := match arg with
      | .set => true
      | .clear => false
      | .unchanged => old
    (setFlags z n h c f).getLsbD 7 = new z (f.getLsbD 7) ∧
    (setFlags z n h c f).getLsbD 6 = new n (f.getLsbD 6) ∧
    (setFlags z n h c f).getLsbD 5 = new h (f.getLsbD 5) ∧
    (setFlags z n h c f).getLsbD 4 = new c (f.getLsbD 4) ∧
    ∀ k, k < 4 → (setFlags z n h c f).getLsbD k = f.getLsbD k

/-- 10_state.md R23: the five branch conditions read F.Z (bit 7) and F.C (bit 4) and nothing else. -/
def Obligations.ConditionsReadZeroAndCarry : Prop :=
  ∀ f : Byte, condHolds .always f = true ∧
    (condHolds .nz f = true ↔ f.getLsbD 7 = false) ∧ (condHolds .z f = true ↔ f.getLsbD 7 = true) ∧
    (condHolds .nc f = true ↔ f.getLsbD 4 = false) ∧ (condHolds .c f = true ↔ f.getLsbD 4 = true)

/-- 20_memory.md R43: the three region classes. -/
def Obligations.RegionsPartitionTheAddressSpace : Prop :=
  ∀ (c : Config) (a : Word), c.wf = true →
    (region c a = .rom ↔ a.toNat < c.romLimit) ∧
    (region c a = .ram ↔ c.ramBase ≤ a.toNat ∧ a.toNat < c.ramLimit) ∧
    (region c a = .unmapped ↔ c.romLimit ≤ a.toNat ∧ (a.toNat < c.ramBase ∨ c.ramLimit ≤ a.toNat))

/-- 20_memory.md R41: a byte read answers the content of an address of the window or of the ROM image and raises everywhere else,
a ROM address past the image included. -/
def Obligations.ByteReadAnswersOrRaises : Prop :=
  ∀ (s : State) (a : Word),
    ((region s.cfg a = .ram ∨ (region s.cfg a = .rom ∧ a.toNat < s.cfg.romSize)) →
      s.readByte a = .ok (s.mem.byteAt a.toNat)) ∧
    ((region s.cfg a = .unmapped ∨ (region s.cfg a = .rom ∧ s.cfg.romSize ≤ a.toNat)) →
      s.readByte a = .error (.unimplemented (.unmappedRead a)))

/-- 20_memory.md R42: a byte write in the window changes exactly that byte and nothing else; elsewhere it raises. -/
def Obligations.ByteWriteChangesOneByteOrRaises : Prop :=
  ∀ (s : State) (a : Word) (v : Byte),
    (region s.cfg a = .ram → ∃ t, s.writeByte a v = .ok t ∧ Stored a v s t ∧ t = { s with mem := t.mem }) ∧
    (region s.cfg a ≠ .ram → s.writeByte a v = .error (.unimplemented (.writeViolation a)))

/-- 20_memory.md R55: writing V at A and reading 16 bits from A returns V, for A in the window minus its last address. -/
def Obligations.WordWriteThenReadReturnsIt : Prop :=
  ∀ (s : State) (a v : Word), s.cfg.wf = true → s.cfg.ramBase ≤ a.toNat → a.toNat + 1 < s.cfg.ramLimit →
    ∃ t, s.writeWord a v = .ok t ∧ t.readWord a = .ok v

/-- 20_memory.md R44, R45: the 16-bit helpers are two byte accesses, little-endian; the read takes the low byte first, the write
stores the high byte first, and the first access that raises is the one reported. -/
def Obligations.WordHelpersArePairsOfBytes : Prop :=
  ∀ (s : State) (a v : Word),
    (∀ lo hi, s.readByte a = .ok lo → s.readByte (a + 1) = .ok hi → s.readWord a = .ok (hi ++ lo)) ∧
    (∀ c, s.readByte a = .error c → s.readWord a = .error c) ∧
    (∀ lo c, s.readByte a = .ok lo → s.readByte (a + 1) = .error c → s.readWord a = .error c) ∧
    (region s.cfg (a + 1) ≠ .ram → s.writeWord a v = .error (.unimplemented (.writeViolation (a + 1)))) ∧
    (region s.cfg (a + 1) = .ram → region s.cfg a ≠ .ram →
      s.writeWord a v = .error (.unimplemented (.writeViolation a))) ∧
    (region s.cfg (a + 1) = .ram → region s.cfg a = .ram → ∃ t, s.writeWord a v = .ok t ∧
      t.readByte a = .ok (v.extractLsb' 0 8) ∧ t.readByte (a + 1) = .ok (v.extractLsb' 8 8) ∧
      (∀ x, x ≠ a → x ≠ a + 1 → t.readByte x = s.readByte x))

/-! ### Whole-machine rules -/

/-- 10_state.md R14: every step keeps the low nibble of F at zero. -/
def Obligations.LowNibbleOfFStaysZero : Prop :=
  ∀ s t : State, step s = .next t → s.regs.f &&& 0x0F = 0 → t.regs.f &&& 0x0F = 0

/-- 10_state.md R16: only `DEC r` and `XOR A,r` write flags, and no instruction sets F.C where it was clear. -/
def Obligations.OnlyDecAndXorWriteFlags : Prop :=
  ∀ (i : Instr) (s t : State), exec i s = .next t →
    ((∀ r, i ≠ Instr.decOf r ∧ i ≠ Instr.xorOf r) → t.regs.f = s.regs.f) ∧
    (flagC s.regs.f = false → flagC t.regs.f = false)

/-- 10_state.md R12: SP is written by `LD SP,d16` only. -/
def Obligations.OnlyLoadSpWritesSp : Prop :=
  ∀ (i : Instr) (s t : State), exec i s = .next t → (∀ d16, i ≠ .ldSpD16 d16) → t.regs.sp = s.regs.sp

/-- 40_engine.md R80, 10_state.md R31: an instruction changes no byte of memory but the one it stores to, at the address its pointer
register gives (43_ld.md R134 to R138); a form that stores nothing changes none. -/
def Obligations.OnlyTheStoredByteChanges : Prop :=
  ∀ (i : Instr) (s t : State), exec i s = .next t →
    ∀ x, storeAddress i s ≠ some x → t.readByte x = s.readByte x

/-- 10_state.md R34, 20_memory.md R52: no step changes the parameters or a byte of the ROM region. -/
def Obligations.StepKeepsParametersAndRom : Prop :=
  ∀ s t : State, step s = .next t →
    t.cfg = s.cfg ∧ ∀ a, region s.cfg a = .rom → t.readByte a = s.readByte a

/-- 60_exceptions.md R162: a step that halts the core is undone but for the halted flag and the record, which names the address the
opcode was fetched from. -/
def Obligations.FatalErrorsArePrecise : Prop :=
  ∀ s t : State, s.halted = false → s.fault = none → step s = .next t → t.halted = true →
    t.regs = s.regs ∧ SameBytes s t ∧ t.cfg = s.cfg ∧
    ∃ r, t.fault = some r ∧ r.pcAtFetch = s.regs.pc ∧ r.opcode = (s.readByte s.regs.pc).toOption

/-- 60_exceptions.md R163: the causes the default table can reach, each with what it names. The other three causes are
unreachable. -/
def Obligations.ReachableCausesOfTheDefaultTable : Prop :=
  ∀ (s t : State) (r : FaultRecord), s.halted = false → s.fault = none → step s = .next t → t.fault = some r →
    (r.cause = .unknownOpcode ∧ ∃ op, r.opcode = some op ∧ isInvalidOpcode op = true) ∨
    (∃ k, k ≤ 2 ∧ r.cause = .unimplemented (.unmappedRead (s.regs.pc + BitVec.ofNat 16 k)) ∧
      readable s.cfg (s.regs.pc + BitVec.ofNat 16 k) = false) ∨
    (∃ i a, storeAddress i s = some a ∧ r.opcode = some i.opcode ∧ region s.cfg a ≠ .ram ∧
      r.cause = .unimplemented (.writeViolation a)) ∨
    (r.cause = .unimplemented (.unimplementedMode .hlSpr) ∧ r.opcode = some 0xF8)

/-- 10_state.md R19, 60_exceptions.md R167: no step clears `halted`, and a fault record, once written, is kept. -/
def Obligations.FaultRecordIsWrittenOnce : Prop :=
  ∀ s t : State, step s = .next t →
    (s.halted = true → t.halted = true) ∧ (∀ r, s.fault = some r → t.fault = some r) ∧
    (s.halted = false → s.fault = none → (t.halted = true ↔ t.fault ≠ none))

/-- 20_memory.md R52: a store over the very next instruction, by any of the eleven storing forms, is what the next step fetches as
its opcode byte; in the window such a store completes. -/
def Obligations.StoreIsSeenByTheNextFetch : Prop :=
  ∀ (i : Instr) (s : State) (v : Byte), storeAddress i s = some (s.regs.pc + 1) → storeByte i s = some v →
    (region s.cfg (s.regs.pc + 1) = .ram → ∃ t, exec i s = .next t ∧ t.halted = s.halted ∧
      t.regs.pc = s.regs.pc + 1 ∧ t.readByte t.regs.pc = .ok v) ∧
    (∀ t, exec i s = .next t → s.halted = false → t.halted = false → t.readByte t.regs.pc = .ok v)

/-- 10_state.md R26: two states that differ only in latches behave the same: their steps end alike, but for latches. -/
def Obligations.LatchesDoNotInfluenceTheStep : Prop :=
  ∀ s t : State, s.forgetLatches = t.forgetLatches →
    (∀ s', step s = .next s' → ∃ t', step t = .next t' ∧ s'.forgetLatches = t'.forgetLatches) ∧
    (∀ r, step s = .refused r → step t = .refused r) ∧ (∀ r, step s = .fault r → step t = .fault r)

/-- 70_reset_and_hazards.md R195, 10_state.md R33: the tally after an instruction that does not raise grows by the number of its
operand bytes when cycles are counted, and does not move otherwise. -/
def Obligations.CyclesCountOperandBytes : Prop :=
  ∀ (i : Instr) (s t : State), s.halted = false → exec i s = .next t → t.halted = false →
    t.cycles = tally i.operands.length s

/-- 60_exceptions.md R176: one trace record for each successfully decoded instruction, with the address, the byte and the
mnemonic of the table; none when the core is halted, the opcode is unreadable or it is unknown. -/
def Obligations.TraceRecordOfDecodedInstruction : Prop :=
  (∀ s : State, s.halted = true → traceRecord s = none) ∧
  ∀ s : State, Running s →
    (readable s.cfg s.regs.pc = false → traceRecord s = none) ∧
    (∀ op, s.readByte s.regs.pc = .ok op →
      traceRecord s = if isInvalidOpcode op then none else some ⟨s.regs.pc, op, (itab op).mnemonic⟩)

/-- 70_reset_and_hazards.md R187: the Interpreter Loop is steps until halted: its result after `k` steps is that of `k` steps. -/
def Obligations.InterpreterLoopIsRepeatedSteps : Prop :=
  ∀ (k : Nat) (s : State), interpret k s = Sys2Proof.core.run k s

/-! ### Invariant and reset -/

/-- 10_state.md R14, R18, R33, 60_exceptions.md R162 and 20_memory.md R31: every step keeps the invariant `State.Inv`: legal, memory
canonical, halted exactly when a fault is recorded, no tally when cycles are not counted. -/
def Obligations.EveryStepKeepsTheInvariant : Prop :=
  ∀ s t : State, s.Inv → step s = .next t → t.Inv

/-- 10_state.md R35: the invariant holds at reset (parameters and memory there are the model's choice, log entries 2, 3, 14). -/
def Obligations.ResetMeetsTheInvariant : Prop := State.reset.Inv

/-- 10_state.md R35, 70_reset_and_hazards.md R180: what `init()` leaves, on any state, halted or not: every register zero, PC at the
entry address, not halted, no fault, latches cleared, no cycles, memory and parameters untouched. -/
def Obligations.InitGivesTheResetState : Prop :=
  (∀ s : State, s.init.regs = ⟨0, 0, 0, 0, 0, 0, 0, 0, 0, s.cfg.entryPc⟩ ∧ s.init.halted = false ∧ s.init.fault = none ∧
    s.init.curOpcode = 0 ∧ s.init.curInst = Descriptor.invalid ∧ s.init.fetched = 0 ∧ s.init.memDest = 0 ∧
    s.init.destIsMem = false ∧ s.init.cycles = 0 ∧ s.init.mem = s.mem ∧ s.init.cfg = s.cfg) ∧
  State.reset.init = State.reset

/-! ### Encoding -/

/-- 30_encoding.md R65, R66: decoding the bytes of a well-formed instruction gives it back, whatever follows. -/
def Obligations.DecodeOfEncodeIsTheInstruction : Prop :=
  ∀ (i : Instr) (rest : List Byte), i.wf = true → decode (encode i ++ rest) = .ok (i, rest)

/-- 30_encoding.md R71, R66: each byte sequence has one meaning: what decodes is well-formed and encodes back to the bytes read;
decoding fails exactly where the bytes of the format are missing. -/
def Obligations.EncodeOfDecodeIsTheBytes : Prop :=
  (∀ (bytes rest : List Byte) (i : Instr), decode bytes = .ok (i, rest) → i.wf = true ∧ encode i ++ rest = bytes) ∧
  (∀ bytes : List Byte, 3 ≤ bytes.length → ∃ i rest, decode bytes = .ok (i, rest)) ∧
  decode [] = .error .noOpcode ∧
  ∀ (op : Byte) (rest : List Byte),
    ((itab op).mode.operandBytes ≤ rest.length → ∃ i, decode (op :: rest) = .ok (i, rest.drop (itab op).mode.operandBytes)) ∧
    (rest.length < (itab op).mode.operandBytes → decode (op :: rest) = .error (.missingOperand op))

/-- 30_encoding.md R64: the INVALID descriptor is held by exactly the listed opcode values, and there are 164 of them. -/
def Obligations.InvalidOpcodesAreTheListed164 : Prop :=
  (∀ op : Byte, (itab op).kind = .invalid ↔ isInvalidOpcode op = true) ∧
  (∀ op : Byte, isInvalidOpcode op = true → itab op = Descriptor.invalid) ∧
  ((List.range 256).filter fun n => isInvalidOpcode (BitVec.ofNat 8 n)).length = 164

/-- 30_encoding.md R66: an instruction is 1, 2 or 3 bytes, and its length is the mode's operand bytes (R61) plus one. -/
def Obligations.LengthFollowsTheMode : Prop :=
  ∀ i : Instr, i.wf = true →
    (encode i).length = i.length ∧ i.length = 1 + (itab i.opcode).mode.operandBytes ∧
    1 ≤ i.length ∧ i.length ≤ 3

/-- 30_encoding.md R62, R63: words written out bit by bit decode to the instruction they stand for, one for each family. -/
def Obligations.EncodedWordsDecode : Prop :=
  decodeTableWord 8 0b00000000 = some .nop ∧
  decodeTableWord 8 0b00110101 = some (.invalid 0x35) ∧
  decodeTableWord 8 0b00100101 = some .decH ∧
  decodeTableWord 8 0b10101011 = some .xorE ∧
  decodeTableWord 8 0b01100011 = some .ldHE ∧
  decodeTableWord 16 0b1010010100111110 = some (.ldAD8 0b10100101) ∧
  decodeTableWord 24 0b110111111111111000110001 = some (.ldSpD16 0b1101111111111110) ∧
  decodeTableWord 8 0b01110010 = some .ldIndHlD ∧
  decodeTableWord 8 0b00000010 = some .ldIndBcA ∧
  decodeTableWord 8 0b00110010 = some .ldHldA ∧
  decodeTableWord 24 0b000100100011010011000011 = some (.jpA16 0b0001001000110100) ∧
  decodeTableWord 16 0b1111101100110000 = some (.jrNc 0b11111011) ∧
  decodeTableWord 16 0b0000001011111000 = some (.ldHlSpE8 0b00000010)

/-! ### The mechanism over any table -/

/-- 40_engine.md R80 to R98: on the default table the engine, written over descriptors, does what the step does, which is written
instruction by instruction. -/
def Obligations.StepIsTheEngineOnTheDefaultTable : Prop :=
  ∀ s : State, s.legal = true → step s = .next (engineStep itab s)

/-- 40_engine.md R84: operand resolution of any descriptor never reads or writes data memory, never writes F, and writes no
register but PC and, in the two auto-modify modes, HL. -/
def Obligations.ResolutionTouchesNoMemoryAndNoFlag : Prop :=
  ∀ (d : Descriptor) (s t : State), enginePhaseResolve d s = .done t →
    t.mem = s.mem ∧ t.regs.f = s.regs.f ∧ t.regs.sp = s.regs.sp ∧
    (d.mode ≠ .hliR → d.mode ≠ .hldR → ∀ q, t.regs.get q = s.regs.get q) ∧
    (d.mode = .hliR → t.memDest = s.regs.getPair .hl ∧ t.regs = s.regs.putPair .hl (s.regs.getPair .hl + 1)) ∧
    (d.mode = .hldR → t.memDest = s.regs.getPair .hl ∧ t.regs = s.regs.putPair .hl (s.regs.getPair .hl - 1))

/-- 10_state.md R20, 40_engine.md R86, R87, R91 to R93: a mode that reads the register `NONE` raises `UnsupportedRegister`. -/
def Obligations.ResolvingNoRegisterRaises : Prop :=
  ∀ (d : Descriptor) (s : State),
    (((d.mode = .r ∨ d.mode = .mrR) ∧ d.reg1 = .noReg) ∨
      ((d.mode = .rR ∨ d.mode = .mrR ∨ d.mode = .hliR ∨ d.mode = .hldR) ∧ d.reg2 = .noReg)) →
    enginePhaseResolve d s = .raised (.unimplemented (.unsupportedRegister .noReg)) (some s.curOpcode) s

/-- 40_engine.md R98: a descriptor of the kind `DEC`, `XOR` or `LD` in a mode outside the list has no execute handler and raises. The
sub-cause for `LD` is the model's reading (log entry 11). -/
def Obligations.ModesOutsideTheListRaise : Prop :=
  ∀ (d : Descriptor) (s : State),
    (d.kind = .dec → d.mode ≠ .r →
      enginePhaseExecute d s = .raised (.unimplemented (.unimplementedCombination .dec)) (some s.curOpcode) s) ∧
    (d.kind = .xor → d.mode ≠ .r →
      enginePhaseExecute d s = .raised (.unimplemented (.unimplementedCombination .xor)) (some s.curOpcode) s) ∧
    (d.kind = .ld → (d.mode = .imp ∨ d.mode = .r ∨ d.mode = .d16 ∨ d.mode = .rel8) →
      enginePhaseExecute d s = .raised (.unimplemented (.unimplementedCombination .ld)) (some s.curOpcode) s)

/-- 44_jp_jr.md R152: a `JP`-kind descriptor with any other pair of mode and condition has no execute handler. -/
def Obligations.OtherJumpDescriptorsRaise : Prop :=
  ∀ (d : Descriptor) (s : State), d.kind = .jp → ¬ (d.mode = .d16 ∧ d.cond = some .always) →
    ¬ (d.mode = .rel8 ∧ ∃ cc, cc ≠ .always ∧ d.cond = some cc) →
    enginePhaseExecute d s = .raised (.unimplemented (.unimplementedCombination .jp)) (some s.curOpcode) s

/-- 43_ld.md R130: the execute rule of the kind `LD` over any descriptor whose mode R98 lists for it: with a destination in memory
the 16-bit helper when the source register is 16-bit and the 8-bit write otherwise, else the register write. -/
def Obligations.LoadExecuteRule : Prop :=
  ∀ (d : Descriptor) (s : State), d.kind = .ld →
    (d.mode = .hlSpr → enginePhaseExecute d s = .raised (.unimplemented (.unimplementedMode .hlSpr)) (some s.curOpcode) s) ∧
    (d.mode = .rR ∨ d.mode = .rD8 ∨ d.mode = .rD16 ∨ d.mode = .mrR ∨ d.mode = .hliR ∨ d.mode = .hldR →
      (∀ r, (s.destIsMem = true ∧ isReg16 d.reg2 = true ∧ r = s.writeWord s.memDest s.fetched) ∨
          (s.destIsMem = true ∧ isReg16 d.reg2 = false ∧ r = s.writeByte s.memDest (s.fetched.setWidth 8)) →
        (∀ t, r = .ok t → enginePhaseExecute d s = .done t) ∧
        (∀ c, r = .error c → enginePhaseExecute d s = .raised c (some s.curOpcode) s)) ∧
      (s.destIsMem = false →
        (∀ x, writeReg s.regs d.reg1 s.fetched = .ok x → enginePhaseExecute d s = .done { s with regs := x }) ∧
        (∀ c, writeReg s.regs d.reg1 s.fetched = .error c → enginePhaseExecute d s = .raised c (some s.curOpcode) s)))

/-- 40_engine.md R97: execute of a kind without a handler raises `UnimplementedKind` with the kind, in every mode; and over any
table, an opcode whose descriptor has such a kind, in a mode whose resolution ends, is that fatal error. -/
def Obligations.UnhandledKindRaises : Prop :=
  ∀ k : Nat,
    (∀ (d : Descriptor) (now : State), d.kind = .other k →
      enginePhaseExecute d now = .raised (.unimplemented (.unimplementedKind (.other k))) (some now.curOpcode) now) ∧
    (∀ (tab : Byte → Descriptor) (s : State) (op : Byte), s.halted = false → s.readByte s.regs.pc = .ok op →
      (tab op).kind = .other k → Resolves (tab op) s →
      Raised (.unimplemented (.unimplementedKind (.other k))) (some op) s (engineStep tab s))

/-- 40_engine.md R82, R162, R170 over any table: the engine's step keeps the low nibble of F at zero and undoes a step that
raises. -/
def Obligations.EngineIsPreciseOverAnyTable : Prop :=
  ∀ (tab : Byte → Descriptor) (s : State),
    (s.halted = true → engineStep tab s = s) ∧
    (s.regs.f &&& 0x0F = 0 → (engineStep tab s).regs.f &&& 0x0F = 0) ∧
    (s.halted = false → (engineStep tab s).halted = true →
      (engineStep tab s).regs = s.regs ∧ SameBytes s (engineStep tab s) ∧ (engineStep tab s).fault ≠ none)
end

