-- ==== Sys2Proof/Laws/Bits.lean ====
section
/-! SUPPORT. The byte-order and extension helpers cancel (00_scope.md R6, R7). -/

namespace Sys2Proof

@[simp] theorem loByte_wordOf (hi lo : Byte) : loByte (wordOf hi lo) = lo := by
  ext i h
  simp only [loByte, wordOf, BitVec.getElem_extractLsb', BitVec.getLsbD_append, Nat.zero_add, h, if_true, BitVec.getLsbD_eq_getElem]

@[simp] theorem hiByte_wordOf (hi lo : Byte) : hiByte (wordOf hi lo) = hi := by
  ext i h
  have : ¬ 8 + i < 8 := by omega
  have e : 8 + i - 8 = i := by omega
  simp only [hiByte, wordOf, BitVec.getElem_extractLsb', BitVec.getLsbD_append, this, if_false, e, h, BitVec.getLsbD_eq_getElem]

@[simp] theorem wordOf_hiByte_loByte (v : Word) : wordOf (hiByte v) (loByte v) = v := by
  apply BitVec.eq_of_getLsbD_eq
  intro i hi
  simp only [wordOf, hiByte, loByte, BitVec.getLsbD_append, BitVec.getLsbD_extractLsb']
  by_cases h : i < 8
  · simp [h]
  · have h8 : i - 8 < 8 := by omega
    have e : 8 + (i - 8) = i := by omega
    simp [h, h8, e]

@[simp] theorem loByte_zext16 (v : Byte) : loByte (zext16 v) = v := by
  ext i h
  have : i < 16 := by omega
  simp [loByte, zext16, this, h, BitVec.getLsbD_eq_getElem]

end Sys2Proof
end

