-- ==== Sys2Proof/Laws/State.lean ====
section
/-! SUPPORT. One lemma for each field of the state after each update, so that no proof unfolds a record update. -/

namespace Sys2Proof.Machine

@[simp] theorem State.clearLatches_cfg (s : State) : s.clearLatches.cfg = s.cfg := rfl
@[simp] theorem State.clearLatches_regs (s : State) : s.clearLatches.regs = s.regs := rfl
@[simp] theorem State.clearLatches_halted (s : State) : s.clearLatches.halted = s.halted := rfl
@[simp] theorem State.clearLatches_fault (s : State) : s.clearLatches.fault = s.fault := rfl
@[simp] theorem State.clearLatches_curOpcode (s : State) : s.clearLatches.curOpcode = s.curOpcode := rfl
@[simp] theorem State.clearLatches_curInst (s : State) : s.clearLatches.curInst = s.curInst := rfl
@[simp] theorem State.clearLatches_fetched (s : State) : s.clearLatches.fetched = 0 := rfl
@[simp] theorem State.clearLatches_memDest (s : State) : s.clearLatches.memDest = 0 := rfl
@[simp] theorem State.clearLatches_destIsMem (s : State) : s.clearLatches.destIsMem = false := rfl
@[simp] theorem State.clearLatches_cycles (s : State) : s.clearLatches.cycles = s.cycles := rfl
@[simp] theorem State.clearLatches_mem (s : State) : s.clearLatches.mem = s.mem := rfl

@[simp] theorem State.advancePc_cfg (s : State) : s.advancePc.cfg = s.cfg := rfl
@[simp] theorem State.advancePc_regs (s : State) : s.advancePc.regs = s.regs.setPc (s.regs.pc + 1) := rfl
@[simp] theorem State.advancePc_halted (s : State) : s.advancePc.halted = s.halted := rfl
@[simp] theorem State.advancePc_fault (s : State) : s.advancePc.fault = s.fault := rfl
@[simp] theorem State.advancePc_curOpcode (s : State) : s.advancePc.curOpcode = s.curOpcode := rfl
@[simp] theorem State.advancePc_curInst (s : State) : s.advancePc.curInst = s.curInst := rfl
@[simp] theorem State.advancePc_fetched (s : State) : s.advancePc.fetched = s.fetched := rfl
@[simp] theorem State.advancePc_memDest (s : State) : s.advancePc.memDest = s.memDest := rfl
@[simp] theorem State.advancePc_destIsMem (s : State) : s.advancePc.destIsMem = s.destIsMem := rfl
@[simp] theorem State.advancePc_cycles (s : State) : s.advancePc.cycles = s.cycles := rfl
@[simp] theorem State.advancePc_mem (s : State) : s.advancePc.mem = s.mem := rfl

@[simp] theorem State.latchOpcode_cfg (s : State) (op : Byte) (d : Descriptor) : (s.latchOpcode op d).cfg = s.cfg := rfl
@[simp] theorem State.latchOpcode_regs (s : State) (op : Byte) (d : Descriptor) : (s.latchOpcode op d).regs = s.regs.setPc (s.regs.pc + 1) := rfl
@[simp] theorem State.latchOpcode_halted (s : State) (op : Byte) (d : Descriptor) : (s.latchOpcode op d).halted = s.halted := rfl
@[simp] theorem State.latchOpcode_fault (s : State) (op : Byte) (d : Descriptor) : (s.latchOpcode op d).fault = s.fault := rfl
@[simp] theorem State.latchOpcode_curOpcode (s : State) (op : Byte) (d : Descriptor) : (s.latchOpcode op d).curOpcode = op := rfl
@[simp] theorem State.latchOpcode_curInst (s : State) (op : Byte) (d : Descriptor) : (s.latchOpcode op d).curInst = d := rfl
@[simp] theorem State.latchOpcode_fetched (s : State) (op : Byte) (d : Descriptor) : (s.latchOpcode op d).fetched = s.fetched := rfl
@[simp] theorem State.latchOpcode_memDest (s : State) (op : Byte) (d : Descriptor) : (s.latchOpcode op d).memDest = s.memDest := rfl
@[simp] theorem State.latchOpcode_destIsMem (s : State) (op : Byte) (d : Descriptor) : (s.latchOpcode op d).destIsMem = s.destIsMem := rfl
@[simp] theorem State.latchOpcode_cycles (s : State) (op : Byte) (d : Descriptor) : (s.latchOpcode op d).cycles = s.cycles := rfl
@[simp] theorem State.latchOpcode_mem (s : State) (op : Byte) (d : Descriptor) : (s.latchOpcode op d).mem = s.mem := rfl

@[simp] theorem State.passOperand_cfg (s : State) : s.passOperand.cfg = s.cfg := rfl
@[simp] theorem State.passOperand_regs (s : State) : s.passOperand.regs = s.regs.setPc (s.regs.pc + 1) := rfl
@[simp] theorem State.passOperand_halted (s : State) : s.passOperand.halted = s.halted := rfl
@[simp] theorem State.passOperand_fault (s : State) : s.passOperand.fault = s.fault := rfl
@[simp] theorem State.passOperand_curOpcode (s : State) : s.passOperand.curOpcode = s.curOpcode := rfl
@[simp] theorem State.passOperand_curInst (s : State) : s.passOperand.curInst = s.curInst := rfl
@[simp] theorem State.passOperand_fetched (s : State) : s.passOperand.fetched = s.fetched := rfl
@[simp] theorem State.passOperand_memDest (s : State) : s.passOperand.memDest = s.memDest := rfl
@[simp] theorem State.passOperand_destIsMem (s : State) : s.passOperand.destIsMem = s.destIsMem := rfl
@[simp] theorem State.passOperand_cycles (s : State) : s.passOperand.cycles = bif s.cfg.countCycles then s.cycles + 1 else s.cycles := rfl
@[simp] theorem State.passOperand_mem (s : State) : s.passOperand.mem = s.mem := rfl

@[simp] theorem State.begin_cfg (s : State) (op : Byte) : (s.begin op).cfg = s.cfg := rfl
@[simp] theorem State.begin_regs (s : State) (op : Byte) : (s.begin op).regs = s.regs.setPc (s.regs.pc + 1) := rfl
@[simp] theorem State.begin_halted (s : State) (op : Byte) : (s.begin op).halted = s.halted := rfl
@[simp] theorem State.begin_fault (s : State) (op : Byte) : (s.begin op).fault = s.fault := rfl
@[simp] theorem State.begin_curOpcode (s : State) (op : Byte) : (s.begin op).curOpcode = op := rfl
@[simp] theorem State.begin_curInst (s : State) (op : Byte) : (s.begin op).curInst = itab op := rfl
@[simp] theorem State.begin_fetched (s : State) (op : Byte) : (s.begin op).fetched = 0 := rfl
@[simp] theorem State.begin_memDest (s : State) (op : Byte) : (s.begin op).memDest = 0 := rfl
@[simp] theorem State.begin_destIsMem (s : State) (op : Byte) : (s.begin op).destIsMem = false := rfl
@[simp] theorem State.begin_cycles (s : State) (op : Byte) : (s.begin op).cycles = s.cycles := rfl
@[simp] theorem State.begin_mem (s : State) (op : Byte) : (s.begin op).mem = s.mem := rfl

@[simp] theorem State.latchFetched_cfg (s : State) (v : Word) : (s.latchFetched v).cfg = s.cfg := rfl
@[simp] theorem State.latchFetched_regs (s : State) (v : Word) : (s.latchFetched v).regs = s.regs := rfl
@[simp] theorem State.latchFetched_halted (s : State) (v : Word) : (s.latchFetched v).halted = s.halted := rfl
@[simp] theorem State.latchFetched_fault (s : State) (v : Word) : (s.latchFetched v).fault = s.fault := rfl
@[simp] theorem State.latchFetched_curOpcode (s : State) (v : Word) : (s.latchFetched v).curOpcode = s.curOpcode := rfl
@[simp] theorem State.latchFetched_curInst (s : State) (v : Word) : (s.latchFetched v).curInst = s.curInst := rfl
@[simp] theorem State.latchFetched_fetched (s : State) (v : Word) : (s.latchFetched v).fetched = v := rfl
@[simp] theorem State.latchFetched_memDest (s : State) (v : Word) : (s.latchFetched v).memDest = s.memDest := rfl
@[simp] theorem State.latchFetched_destIsMem (s : State) (v : Word) : (s.latchFetched v).destIsMem = s.destIsMem := rfl
@[simp] theorem State.latchFetched_cycles (s : State) (v : Word) : (s.latchFetched v).cycles = s.cycles := rfl
@[simp] theorem State.latchFetched_mem (s : State) (v : Word) : (s.latchFetched v).mem = s.mem := rfl

@[simp] theorem State.latchDest_cfg (s : State) (a : Word) : (s.latchDest a).cfg = s.cfg := rfl
@[simp] theorem State.latchDest_regs (s : State) (a : Word) : (s.latchDest a).regs = s.regs := rfl
@[simp] theorem State.latchDest_halted (s : State) (a : Word) : (s.latchDest a).halted = s.halted := rfl
@[simp] theorem State.latchDest_fault (s : State) (a : Word) : (s.latchDest a).fault = s.fault := rfl
@[simp] theorem State.latchDest_curOpcode (s : State) (a : Word) : (s.latchDest a).curOpcode = s.curOpcode := rfl
@[simp] theorem State.latchDest_curInst (s : State) (a : Word) : (s.latchDest a).curInst = s.curInst := rfl
@[simp] theorem State.latchDest_fetched (s : State) (a : Word) : (s.latchDest a).fetched = s.fetched := rfl
@[simp] theorem State.latchDest_memDest (s : State) (a : Word) : (s.latchDest a).memDest = a := rfl
@[simp] theorem State.latchDest_destIsMem (s : State) (a : Word) : (s.latchDest a).destIsMem = true := rfl
@[simp] theorem State.latchDest_cycles (s : State) (a : Word) : (s.latchDest a).cycles = s.cycles := rfl
@[simp] theorem State.latchDest_mem (s : State) (a : Word) : (s.latchDest a).mem = s.mem := rfl

@[simp] theorem State.withRegs_cfg (s : State) (x : RegFile) : (s.withRegs x).cfg = s.cfg := rfl
@[simp] theorem State.withRegs_regs (s : State) (x : RegFile) : (s.withRegs x).regs = x := rfl
@[simp] theorem State.withRegs_halted (s : State) (x : RegFile) : (s.withRegs x).halted = s.halted := rfl
@[simp] theorem State.withRegs_fault (s : State) (x : RegFile) : (s.withRegs x).fault = s.fault := rfl
@[simp] theorem State.withRegs_curOpcode (s : State) (x : RegFile) : (s.withRegs x).curOpcode = s.curOpcode := rfl
@[simp] theorem State.withRegs_curInst (s : State) (x : RegFile) : (s.withRegs x).curInst = s.curInst := rfl
@[simp] theorem State.withRegs_fetched (s : State) (x : RegFile) : (s.withRegs x).fetched = s.fetched := rfl
@[simp] theorem State.withRegs_memDest (s : State) (x : RegFile) : (s.withRegs x).memDest = s.memDest := rfl
@[simp] theorem State.withRegs_destIsMem (s : State) (x : RegFile) : (s.withRegs x).destIsMem = s.destIsMem := rfl
@[simp] theorem State.withRegs_cycles (s : State) (x : RegFile) : (s.withRegs x).cycles = s.cycles := rfl
@[simp] theorem State.withRegs_mem (s : State) (x : RegFile) : (s.withRegs x).mem = s.mem := rfl

@[simp] theorem State.jumpTo_cfg (s : State) (target : Word) : (s.jumpTo target).cfg = s.cfg := rfl
@[simp] theorem State.jumpTo_regs (s : State) (target : Word) : (s.jumpTo target).regs = s.regs.setPc target := rfl
@[simp] theorem State.jumpTo_halted (s : State) (target : Word) : (s.jumpTo target).halted = s.halted := rfl
@[simp] theorem State.jumpTo_fault (s : State) (target : Word) : (s.jumpTo target).fault = s.fault := rfl
@[simp] theorem State.jumpTo_curOpcode (s : State) (target : Word) : (s.jumpTo target).curOpcode = s.curOpcode := rfl
@[simp] theorem State.jumpTo_curInst (s : State) (target : Word) : (s.jumpTo target).curInst = s.curInst := rfl
@[simp] theorem State.jumpTo_fetched (s : State) (target : Word) : (s.jumpTo target).fetched = s.fetched := rfl
@[simp] theorem State.jumpTo_memDest (s : State) (target : Word) : (s.jumpTo target).memDest = s.memDest := rfl
@[simp] theorem State.jumpTo_destIsMem (s : State) (target : Word) : (s.jumpTo target).destIsMem = s.destIsMem := rfl
@[simp] theorem State.jumpTo_cycles (s : State) (target : Word) : (s.jumpTo target).cycles = s.cycles := rfl
@[simp] theorem State.jumpTo_mem (s : State) (target : Word) : (s.jumpTo target).mem = s.mem := rfl

@[simp] theorem State.init_cfg (s : State) : s.init.cfg = s.cfg := rfl
@[simp] theorem State.init_regs (s : State) : s.init.regs = RegFile.reset s.cfg.entryPc := rfl
@[simp] theorem State.init_halted (s : State) : s.init.halted = false := rfl
@[simp] theorem State.init_fault (s : State) : s.init.fault = none := rfl
@[simp] theorem State.init_curOpcode (s : State) : s.init.curOpcode = 0 := rfl
@[simp] theorem State.init_curInst (s : State) : s.init.curInst = Descriptor.invalid := rfl
@[simp] theorem State.init_fetched (s : State) : s.init.fetched = 0 := rfl
@[simp] theorem State.init_memDest (s : State) : s.init.memDest = 0 := rfl
@[simp] theorem State.init_destIsMem (s : State) : s.init.destIsMem = false := rfl
@[simp] theorem State.init_cycles (s : State) : s.init.cycles = 0 := rfl
@[simp] theorem State.init_mem (s : State) : s.init.mem = s.mem := rfl

@[simp] theorem State.forgetLatches_cfg (s : State) : s.forgetLatches.cfg = s.cfg := rfl
@[simp] theorem State.forgetLatches_regs (s : State) : s.forgetLatches.regs = s.regs := rfl
@[simp] theorem State.forgetLatches_halted (s : State) : s.forgetLatches.halted = s.halted := rfl
@[simp] theorem State.forgetLatches_fault (s : State) : s.forgetLatches.fault = s.fault := rfl
@[simp] theorem State.forgetLatches_curOpcode (s : State) : s.forgetLatches.curOpcode = 0 := rfl
@[simp] theorem State.forgetLatches_curInst (s : State) : s.forgetLatches.curInst = Descriptor.invalid := rfl
@[simp] theorem State.forgetLatches_fetched (s : State) : s.forgetLatches.fetched = 0 := rfl
@[simp] theorem State.forgetLatches_memDest (s : State) : s.forgetLatches.memDest = 0 := rfl
@[simp] theorem State.forgetLatches_destIsMem (s : State) : s.forgetLatches.destIsMem = false := rfl
@[simp] theorem State.forgetLatches_cycles (s : State) : s.forgetLatches.cycles = s.cycles := rfl
@[simp] theorem State.forgetLatches_mem (s : State) : s.forgetLatches.mem = s.mem := rfl

@[simp] theorem raise_cfg (c : Cause) (op : Option Byte) (start now : State) : (raise c op start now).cfg = now.cfg := rfl
@[simp] theorem raise_regs (c : Cause) (op : Option Byte) (start now : State) : (raise c op start now).regs = start.regs := rfl
@[simp] theorem raise_halted (c : Cause) (op : Option Byte) (start now : State) : (raise c op start now).halted = true := rfl
@[simp] theorem raise_curOpcode (c : Cause) (op : Option Byte) (start now : State) : (raise c op start now).curOpcode = now.curOpcode := rfl
@[simp] theorem raise_curInst (c : Cause) (op : Option Byte) (start now : State) : (raise c op start now).curInst = now.curInst := rfl
@[simp] theorem raise_fetched (c : Cause) (op : Option Byte) (start now : State) : (raise c op start now).fetched = now.fetched := rfl
@[simp] theorem raise_memDest (c : Cause) (op : Option Byte) (start now : State) : (raise c op start now).memDest = now.memDest := rfl
@[simp] theorem raise_destIsMem (c : Cause) (op : Option Byte) (start now : State) : (raise c op start now).destIsMem = now.destIsMem := rfl
@[simp] theorem raise_cycles (c : Cause) (op : Option Byte) (start now : State) : (raise c op start now).cycles = now.cycles := rfl
@[simp] theorem raise_mem (c : Cause) (op : Option Byte) (start now : State) : (raise c op start now).mem = start.mem := rfl

/-- The first record is kept (R162: "if fault = None then fault <- …"). -/
@[simp] theorem raise_fault (c : Cause) (op : Option Byte) (start now : State) :
    (raise c op start now).fault = some (now.fault.getD ⟨c, start.regs.pc, op⟩) := rfl

/-! ### Registers -/

@[simp] theorem RegFile.setF_a (x : RegFile) (v : Byte) : (x.setF v).a = x.a := rfl
@[simp] theorem RegFile.setF_f (x : RegFile) (v : Byte) : (x.setF v).f = v := rfl
@[simp] theorem RegFile.setF_b (x : RegFile) (v : Byte) : (x.setF v).b = x.b := rfl
@[simp] theorem RegFile.setF_c (x : RegFile) (v : Byte) : (x.setF v).c = x.c := rfl
@[simp] theorem RegFile.setF_d (x : RegFile) (v : Byte) : (x.setF v).d = x.d := rfl
@[simp] theorem RegFile.setF_e (x : RegFile) (v : Byte) : (x.setF v).e = x.e := rfl
@[simp] theorem RegFile.setF_h (x : RegFile) (v : Byte) : (x.setF v).h = x.h := rfl
@[simp] theorem RegFile.setF_l (x : RegFile) (v : Byte) : (x.setF v).l = x.l := rfl
@[simp] theorem RegFile.setF_sp (x : RegFile) (v : Byte) : (x.setF v).sp = x.sp := rfl
@[simp] theorem RegFile.setF_pc (x : RegFile) (v : Byte) : (x.setF v).pc = x.pc := rfl
@[simp] theorem RegFile.setPc_a (x : RegFile) (v : Word) : (x.setPc v).a = x.a := rfl
@[simp] theorem RegFile.setPc_f (x : RegFile) (v : Word) : (x.setPc v).f = x.f := rfl
@[simp] theorem RegFile.setPc_b (x : RegFile) (v : Word) : (x.setPc v).b = x.b := rfl
@[simp] theorem RegFile.setPc_c (x : RegFile) (v : Word) : (x.setPc v).c = x.c := rfl
@[simp] theorem RegFile.setPc_d (x : RegFile) (v : Word) : (x.setPc v).d = x.d := rfl
@[simp] theorem RegFile.setPc_e (x : RegFile) (v : Word) : (x.setPc v).e = x.e := rfl
@[simp] theorem RegFile.setPc_h (x : RegFile) (v : Word) : (x.setPc v).h = x.h := rfl
@[simp] theorem RegFile.setPc_l (x : RegFile) (v : Word) : (x.setPc v).l = x.l := rfl
@[simp] theorem RegFile.setPc_sp (x : RegFile) (v : Word) : (x.setPc v).sp = x.sp := rfl
@[simp] theorem RegFile.setPc_pc (x : RegFile) (v : Word) : (x.setPc v).pc = v := rfl

@[simp] theorem RegFile.put_f (x : RegFile) (r : GReg) (v : Byte) : (x.put r v).f = x.f := by
  cases r <;> rfl
@[simp] theorem RegFile.put_sp (x : RegFile) (r : GReg) (v : Byte) : (x.put r v).sp = x.sp := by
  cases r <;> rfl
@[simp] theorem RegFile.put_pc (x : RegFile) (r : GReg) (v : Byte) : (x.put r v).pc = x.pc := by
  cases r <;> rfl
@[simp] theorem RegFile.putPair_a (x : RegFile) (r : PairReg) (v : Word) : (x.putPair r v).a = x.a := by
  cases r <;> rfl
@[simp] theorem RegFile.putPair_f (x : RegFile) (r : PairReg) (v : Word) : (x.putPair r v).f = x.f := by
  cases r <;> rfl
@[simp] theorem RegFile.putPair_pc (x : RegFile) (r : PairReg) (v : Word) : (x.putPair r v).pc = x.pc := by
  cases r <;> rfl

theorem RegFile.get_put_self (x : RegFile) (r : GReg) (v : Byte) : (x.put r v).get r = v := by
  cases r <;> rfl

theorem RegFile.get_put_other (x : RegFile) (r q : GReg) (v : Byte) (h : q ≠ r) : (x.put r v).get q = x.get q := by
  cases r <;> cases q <;> first | rfl | exact absurd rfl h

/-- Writing a register the value it holds changes nothing. -/
theorem RegFile.put_get_self (x : RegFile) (r : GReg) : x.put r (x.get r) = x := by
  cases r <;> rfl

/-! The flag register and the program counter are no operand registers. -/

@[simp] theorem RegFile.get_setF (x : RegFile) (r : GReg) (v : Byte) : (x.setF v).get r = x.get r := by
  cases r <;> rfl

@[simp] theorem RegFile.get_setPc (x : RegFile) (r : GReg) (v : Word) : (x.setPc v).get r = x.get r := by
  cases r <;> rfl

@[simp] theorem RegFile.getPair_setF (x : RegFile) (r : PairReg) (v : Byte) : (x.setF v).getPair r = x.getPair r := by
  cases r <;> rfl

@[simp] theorem RegFile.getPair_setPc (x : RegFile) (r : PairReg) (v : Word) : (x.setPc v).getPair r = x.getPair r := by
  cases r <;> rfl

@[simp] theorem RegFile.getPair_putPair_self (x : RegFile) (r : PairReg) (v : Word) : (x.putPair r v).getPair r = v := by
  cases r <;> simp [RegFile.putPair, RegFile.getPair]

theorem RegFile.getPair_putPair_other (x : RegFile) (r q : PairReg) (v : Word) (h : q ≠ r) :
    (x.putPair r v).getPair q = x.getPair q := by
  cases r <;> cases q <;> first | rfl | exact absurd rfl h

@[simp] theorem RegFile.put_setPc (x : RegFile) (r : GReg) (v : Byte) (p : Word) :
    (x.setPc p).put r v = (x.put r v).setPc p := by
  cases r <;> rfl

@[simp] theorem RegFile.setF_setPc (x : RegFile) (v : Byte) (p : Word) : (x.setPc p).setF v = (x.setF v).setPc p := rfl

@[simp] theorem RegFile.setPc_setPc (x : RegFile) (p q : Word) : (x.setPc p).setPc q = x.setPc q := rfl

end Sys2Proof.Machine
end

