-- ==== Sys2Proof/Laws/Memory.lean ====
section
/-! SUPPORT. What the memory operations do: a write is read back, leaves every other address alone and keeps the canonical
form; which byte reads and writes succeed. -/

namespace Sys2Proof.Machine

theorem Memory.lookup_insert_self (m : Memory) (a : Nat) (v : Byte) : (m.insert a v).lookup a = some v := by
  induction m with
  | nil => simp [Memory.insert, Memory.lookup]
  | cons p rest ih =>
    obtain ⟨b, w⟩ := p
    simp only [Memory.insert]
    split
    · simp [Memory.lookup]
    · split
      · simp [Memory.lookup]
      · have : ¬ b = a := by omega
        simpa [Memory.lookup, this] using ih

theorem Memory.lookup_insert_other (m : Memory) (a x : Nat) (v : Byte) (h : x ≠ a) :
    (m.insert a v).lookup x = m.lookup x := by
  induction m with
  | nil => simp [Memory.insert, Memory.lookup, h.symm]
  | cons p rest ih =>
    obtain ⟨b, w⟩ := p
    simp only [Memory.insert]
    split
    · simp [Memory.lookup, h.symm]
    · split
      · subst_vars
        simp [Memory.lookup, h.symm]
      · simp only [Memory.lookup, ih]

/-- A stored byte is what the address then holds. -/
@[simp] theorem Memory.byteAt_insert_self (m : Memory) (a : Nat) (v : Byte) : (m.insert a v).byteAt a = v := by
  simp [Memory.byteAt, Memory.lookup_insert_self]

/-- A stored byte changes no other address. -/
theorem Memory.byteAt_insert_other (m : Memory) (a x : Nat) (v : Byte) (h : x ≠ a) :
    (m.insert a v).byteAt x = m.byteAt x := by
  simp [Memory.byteAt, Memory.lookup_insert_other m a x v h]

theorem Memory.wfFrom_insert (m : Memory) (lo a : Nat) (v : Byte) (hm : m.wfFrom lo = true) (hlo : lo ≤ a)
    (ha : a < 0x10000) : (m.insert a v).wfFrom lo = true := by
  induction m generalizing lo with
  | nil => simp [Memory.insert, Memory.wfFrom, hlo, ha]
  | cons p rest ih =>
    obtain ⟨b, w⟩ := p
    simp only [Memory.wfFrom, Bool.and_eq_true, decide_eq_true_eq] at hm
    obtain ⟨⟨hb, hb16⟩, hrest⟩ := hm
    simp only [Memory.insert]
    split
    · simp only [Memory.wfFrom, Bool.and_eq_true, decide_eq_true_eq]
      exact ⟨⟨hlo, ha⟩, ⟨by omega, hb16⟩, hrest⟩
    · split
      · subst_vars
        simp only [Memory.wfFrom, Bool.and_eq_true, decide_eq_true_eq]
        exact ⟨⟨hlo, ha⟩, hrest⟩
      · simp only [Memory.wfFrom, Bool.and_eq_true, decide_eq_true_eq]
        exact ⟨⟨hb, hb16⟩, ih (b + 1) hrest (by omega)⟩

/-- A store keeps the canonical form. -/
theorem Memory.wf_insert (m : Memory) (a : Word) (v : Byte) (hm : m.wf = true) : (m.insert a.toNat v).wf = true :=
  Memory.wfFrom_insert m 0 a.toNat v hm (Nat.zero_le _) a.isLt

/-- Placing bytes keeps the canonical form. -/
theorem Memory.wf_place (m : Memory) (a : Word) (bs : List Byte) (hm : m.wf = true) : (m.place a bs).wf = true := by
  induction bs generalizing m a with
  | nil => exact hm
  | cons v rest ih => exact ih _ _ (Memory.wf_insert m a v hm)

theorem State.reset_mem_wf : State.reset.mem.wf = true := rfl

/-! ### The bus primitives -/

/-- When a byte read answers, and with what (20_memory.md R41). -/
theorem State.readByte_ok_iff (s : State) (a : Word) (b : Byte) :
    s.readByte a = .ok b ↔ readable s.cfg a = true ∧ s.mem.byteAt a.toNat = b := by
  unfold State.readByte
  split <;> simp_all

/-- When a byte read raises, and what (R41). -/
theorem State.readByte_error_iff (s : State) (a : Word) (c : Cause) :
    s.readByte a = .error c ↔ readable s.cfg a = false ∧ c = .unimplemented (.unmappedRead a) := by
  unfold State.readByte
  cases readable s.cfg a <;> simp [eq_comm (a := c)]

/-- A byte read looks at the parameters and the memory only (R41, R49). -/
theorem State.readByte_congr {s t : State} (hc : t.cfg = s.cfg) (hm : t.mem = s.mem) (a : Word) :
    t.readByte a = s.readByte a := by
  simp [State.readByte, hc, hm]

theorem State.sameBytes_of {s t : State} (hc : t.cfg = s.cfg) (hm : t.mem = s.mem) : SameBytes s t :=
  fun a => State.readByte_congr hc hm a

/-- Everything a byte write can do (R42): in the window it lists the byte, elsewhere it raises `WriteViolation`. -/
theorem State.writeByte_cases (s : State) (a : Word) (v : Byte) :
    (region s.cfg a = .ram ∧ s.writeByte a v = .ok { s with mem := s.mem.insert a.toNat v }) ∨
    (region s.cfg a ≠ .ram ∧ s.writeByte a v = .error (.unimplemented (.writeViolation a))) := by
  unfold State.writeByte
  cases region s.cfg a <;> simp

theorem State.writeByte_ram {s : State} {a : Word} (h : region s.cfg a = .ram) (v : Byte) :
    s.writeByte a v = .ok { s with mem := s.mem.insert a.toNat v } := by
  simp [State.writeByte, h]

theorem State.writeByte_not_ram {s : State} {a : Word} (h : region s.cfg a ≠ .ram) (v : Byte) :
    s.writeByte a v = .error (.unimplemented (.writeViolation a)) := by
  rcases State.writeByte_cases s a v with h' | h'
  · exact absurd h'.1 h
  · exact h'.2

/-- An address of the writable window is readable (R41). -/
theorem readable_of_ram {c : Config} {a : Word} (h : region c a = .ram) : readable c a = true := by
  simp [readable, h]

/-- After a byte is listed at `a`, an address of the window reads it back. -/
theorem State.readByte_stored_self (s : State) (a : Word) (v : Byte) (h : region s.cfg a = .ram) :
    State.readByte { s with mem := s.mem.insert a.toNat v } a = .ok v := by
  simp [State.readByte, readable_of_ram h]

/-- After a byte is listed at `a`, every other address reads as before. -/
theorem State.readByte_stored_other (s : State) (a x : Word) (v : Byte) (h : x ≠ a) :
    State.readByte { s with mem := s.mem.insert a.toNat v } x = s.readByte x := by
  have : x.toNat ≠ a.toNat := fun e => h (BitVec.eq_of_toNat_eq e)
  simp [State.readByte, Memory.byteAt_insert_other _ _ _ _ this]

/-! ### Fatal errors -/

/-- What raising a fatal error leaves (60_exceptions.md R162), for a state reached inside the step. -/
theorem raise_raised (c : Cause) (op : Option Byte) (start now : State) (hc : now.cfg = start.cfg)
    (hf : now.fault = start.fault) : Raised c op start (raise c op start now) := by
  refine ⟨rfl, State.sameBytes_of hc rfl, hc, rfl, ?_⟩
  simp [hf]

end Sys2Proof.Machine
end

