-- ==== Sys2Proof/Laws/Families.lean ====
section
/-! SUPPORT. The 93 constructors as 19 families, and the meaning of each family, so that a claim about every instruction is
proved by 19 cases. -/

namespace Sys2Proof

/-- Every instruction belongs to one family. -/
theorem Instr.by_family {P : Instr → Prop}
    (nop : P .nop) (dec : ∀ r, P (Instr.decOf r)) (xor : ∀ r, P (Instr.xorOf r))
    (ld : ∀ dst src, P (Instr.ldOf dst src)) (ldImm : ∀ dst d8, P (Instr.ldImmOf dst d8)) (ldPair : ∀ rr d16, P (Instr.ldPairOf rr d16))
    (stHl : ∀ r, P (Instr.ldIndHlOf r)) (stBc : P .ldIndBcA) (stDe : P .ldIndDeA) (stInc : P .ldHliA) (stDec : P .ldHldA)
    (hlSp : ∀ e8, P (.ldHlSpE8 e8)) (jp : ∀ a16, P (.jpA16 a16))
    (jrNz : ∀ e8, P (.jrNz e8)) (jrZ : ∀ e8, P (.jrZ e8)) (jrNc : ∀ e8, P (.jrNc e8)) (jrC : ∀ e8, P (.jrC e8))
    (invalid : ∀ op, P (.invalid op)) : ∀ i, P i := by
  intro i
  cases i with
  | nop => exact nop
  | decB => exact dec .b
  | decC => exact dec .c
  | decD => exact dec .d
  | decE => exact dec .e
  | decH => exact dec .h
  | decL => exact dec .l
  | decA => exact dec .a
  | xorB => exact xor .b
  | xorC => exact xor .c
  | xorD => exact xor .d
  | xorE => exact xor .e
  | xorH => exact xor .h
  | xorL => exact xor .l
  | xorA => exact xor .a
  | ldBB => exact ld .b .b
  | ldBC => exact ld .b .c
  | ldBD => exact ld .b .d
  | ldBE => exact ld .b .e
  | ldBH => exact ld .b .h
  | ldBL => exact ld .b .l
  | ldBA => exact ld .b .a
  | ldCB => exact ld .c .b
  | ldCC => exact ld .c .c
  | ldCD => exact ld .c .d
  | ldCE => exact ld .c .e
  | ldCH => exact ld .c .h
  | ldCL => exact ld .c .l
  | ldCA => exact ld .c .a
  | ldDB => exact ld .d .b
  | ldDC => exact ld .d .c
  | ldDD => exact ld .d .d
  | ldDE => exact ld .d .e
  | ldDH => exact ld .d .h
  | ldDL => exact ld .d .l
  | ldDA => exact ld .d .a
  | ldEB => exact ld .e .b
  | ldEC => exact ld .e .c
  | ldED => exact ld .e .d
  | ldEE => exact ld .e .e
  | ldEH => exact ld .e .h
  | ldEL => exact ld .e .l
  | ldEA => exact ld .e .a
  | ldHB => exact ld .h .b
  | ldHC => exact ld .h .c
  | ldHD => exact ld .h .d
  | ldHE => exact ld .h .e
  | ldHH => exact ld .h .h
  | ldHL => exact ld .h .l
  | ldHA => exact ld .h .a
  | ldLB => exact ld .l .b
  | ldLC => exact ld .l .c
  | ldLD => exact ld .l .d
  | ldLE => exact ld .l .e
  | ldLH => exact ld .l .h
  | ldLL => exact ld .l .l
  | ldLA => exact ld .l .a
  | ldAB => exact ld .a .b
  | ldAC => exact ld .a .c
  | ldAD => exact ld .a .d
  | ldAE => exact ld .a .e
  | ldAH => exact ld .a .h
  | ldAL => exact ld .a .l
  | ldAA => exact ld .a .a
  | ldBD8 d8 => exact ldImm .b d8
  | ldCD8 d8 => exact ldImm .c d8
  | ldDD8 d8 => exact ldImm .d d8
  | ldED8 d8 => exact ldImm .e d8
  | ldHD8 d8 => exact ldImm .h d8
  | ldLD8 d8 => exact ldImm .l d8
  | ldAD8 d8 => exact ldImm .a d8
  | ldBcD16 d16 => exact ldPair .bc d16
  | ldDeD16 d16 => exact ldPair .de d16
  | ldHlD16 d16 => exact ldPair .hl d16
  | ldSpD16 d16 => exact ldPair .sp d16
  | ldIndHlB => exact stHl .b
  | ldIndHlC => exact stHl .c
  | ldIndHlD => exact stHl .d
  | ldIndHlE => exact stHl .e
  | ldIndHlH => exact stHl .h
  | ldIndHlL => exact stHl .l
  | ldIndHlA => exact stHl .a
  | ldIndBcA => exact stBc
  | ldIndDeA => exact stDe
  | ldHliA => exact stInc
  | ldHldA => exact stDec
  | ldHlSpE8 e8 => exact hlSp e8
  | jpA16 a16 => exact jp a16
  | jrNz e8 => exact jrNz e8
  | jrZ e8 => exact jrZ e8
  | jrNc e8 => exact jrNc e8
  | jrC e8 => exact jrC e8
  | invalid op => exact invalid op

end Sys2Proof

namespace Sys2Proof.Machine

/-! ### The meaning of each family -/

@[simp] theorem exec_nop (s : State) : exec .nop s = .next (s.begin 0x00) := rfl

@[simp] theorem exec_invalid (op : Byte) (s : State) :
    exec (.invalid op) s = .next (raise .unknownOpcode (some op) s s.clearLatches) := rfl

@[simp] theorem exec_decOf (r : GReg) (s : State) :
    exec (Instr.decOf r) s = .next (decReg (Instr.decOf r).opcode r s) := by cases r <;> rfl

@[simp] theorem exec_xorOf (r : GReg) (s : State) :
    exec (Instr.xorOf r) s = .next (xorReg (Instr.xorOf r).opcode r s) := by cases r <;> rfl

@[simp] theorem exec_ldOf (dst src : GReg) (s : State) :
    exec (Instr.ldOf dst src) s = .next (loadReg (Instr.ldOf dst src).opcode dst src s) := by cases dst <;> cases src <;> rfl

@[simp] theorem exec_ldImmOf (dst : GReg) (d8 : Byte) (s : State) :
    exec (Instr.ldImmOf dst d8) s = .next (loadImm8 (Instr.ldImmOf dst d8).opcode dst d8 s) := by cases dst <;> rfl

@[simp] theorem exec_ldPairOf (rr : PairReg) (d16 : Word) (s : State) :
    exec (Instr.ldPairOf rr d16) s = .next (loadImm16 (Instr.ldPairOf rr d16).opcode rr d16 s) := by cases rr <;> rfl

@[simp] theorem exec_ldIndHlOf (r : GReg) (s : State) :
    exec (Instr.ldIndHlOf r) s = .next (storeReg (Instr.ldIndHlOf r).opcode .hl r s) := by cases r <;> rfl

@[simp] theorem exec_ldIndBcA (s : State) : exec .ldIndBcA s = .next (storeReg 0x02 .bc .a s) := rfl

@[simp] theorem exec_ldIndDeA (s : State) : exec .ldIndDeA s = .next (storeReg 0x12 .de .a s) := rfl

@[simp] theorem exec_ldHliA (s : State) :
    exec .ldHliA s = .next (storeFetched 0x22 s (resolveHlInc .a (s.begin 0x22))) := rfl

@[simp] theorem exec_ldHldA (s : State) :
    exec .ldHldA s = .next (storeFetched 0x32 s (resolveHlDec .a (s.begin 0x32))) := rfl

@[simp] theorem exec_ldHlSpE8 (e8 : Byte) (s : State) : exec (.ldHlSpE8 e8) s =
    .next (raise (.unimplemented (.unimplementedMode .hlSpr)) (some 0xF8) s (s.begin 0xF8)) := rfl

@[simp] theorem exec_jpA16 (a16 : Word) (s : State) :
    exec (.jpA16 a16) s = .next ((resolveAddr16 a16 (s.begin 0xC3)).jumpTo a16) := rfl

@[simp] theorem exec_jrNz (e8 : Byte) (s : State) : exec (.jrNz e8) s = .next (jumpRelative 0x20 .nz e8 s) := rfl

@[simp] theorem exec_jrZ (e8 : Byte) (s : State) : exec (.jrZ e8) s = .next (jumpRelative 0x28 .z e8 s) := rfl

@[simp] theorem exec_jrNc (e8 : Byte) (s : State) : exec (.jrNc e8) s = .next (jumpRelative 0x30 .nc e8 s) := rfl

@[simp] theorem exec_jrC (e8 : Byte) (s : State) : exec (.jrC e8) s = .next (jumpRelative 0x38 .c e8 s) := rfl

/-! ### What a store can do -/

/-- Everything the memory arm of `LD` can do (43_ld.md R130, 20_memory.md R42): inside the window the byte is listed, elsewhere
the step is undone with `WriteViolation`. -/
theorem storeFetched_cases (op : Byte) (start now : State) :
    (region now.cfg now.memDest = .ram ∧
      storeFetched op start now = { now with mem := now.mem.insert now.memDest.toNat (loByte now.fetched) }) ∨
    (region now.cfg now.memDest ≠ .ram ∧
      storeFetched op start now = raise (.unimplemented (.writeViolation now.memDest)) (some op) start now) := by
  rcases State.writeByte_cases now now.memDest (loByte now.fetched) with ⟨h, e⟩ | ⟨h, e⟩
  · exact .inl ⟨h, by simp only [storeFetched, e]⟩
  · exact .inr ⟨h, by simp only [storeFetched, e]⟩

end Sys2Proof.Machine
end

