-- ==== Sys2Proof/Laws/Flags.lean ====
section
/-! SUPPORT. What the two flag computations leave, flag by flag (42_alu_dec_xor.md R120, R121). -/

namespace Sys2Proof

/-- A property of every byte, checked on the 256 bytes. -/
theorem forall_byte {P : Byte → Prop} [DecidablePred P] (h : ∀ n : Fin 256, P (BitVec.ofFin n)) (b : Byte) : P b :=
  h b.toFin

end Sys2Proof

namespace Sys2Proof.Machine

/-- The flags `DEC` leaves, from the old value of its register. -/
theorem decFlags_spec (v f : Byte) :
    flagZ (decFlags v f) = decide ((v - 1).toNat = 0) ∧ flagN (decFlags v f) = true ∧
    flagH (decFlags v f) = decide (v.toNat % 16 = 0) ∧ flagC (decFlags v f) = flagC f ∧
    decFlags v f &&& 0x0F = f &&& 0x0F := by
  have hz : (v - 1 == 0) = decide ((v - 1).toNat = 0) := by
    rw [Bool.eq_iff_iff]
    simp [BitVec.toNat_eq]
  have hh : (v &&& 0x0F == 0) = decide (v.toNat % 16 = 0) := by
    rw [Bool.eq_iff_iff]
    simp only [beq_iff_eq, decide_eq_true_eq]
    exact forall_byte (P := fun v => v &&& 0x0F = 0 ↔ v.toNat % 16 = 0) (by decide +kernel) v
  unfold decFlags
  rw [hz, hh]
  generalize decide ((v - 1).toNat = 0) = z
  generalize decide (v.toNat % 16 = 0) = h
  exact forall_byte (P := fun f => ∀ z h,
    let f' := setFlags (b2f z) .set (b2f h) .unchanged f
    flagZ f' = z ∧ flagN f' = true ∧ flagH f' = h ∧ flagC f' = flagC f ∧ f' &&& 0x0F = f &&& 0x0F)
    (by decide +kernel) f z h

/-- The flags `XOR` leaves, from its result. -/
theorem xorFlags_spec (res f : Byte) :
    flagZ (xorFlags res f) = decide (res.toNat = 0) ∧ flagN (xorFlags res f) = false ∧
    flagH (xorFlags res f) = false ∧ flagC (xorFlags res f) = false ∧ xorFlags res f &&& 0x0F = f &&& 0x0F := by
  have hz : (res == 0) = decide (res.toNat = 0) := by
    rw [Bool.eq_iff_iff]
    simp [BitVec.toNat_eq]
  unfold xorFlags
  rw [hz]
  generalize decide (res.toNat = 0) = z
  exact forall_byte (P := fun f => ∀ z,
    let f' := setFlags (b2f z) .clear .clear .clear f
    flagZ f' = z ∧ flagN f' = false ∧ flagH f' = false ∧ flagC f' = false ∧ f' &&& 0x0F = f &&& 0x0F)
    (by decide +kernel) f z

end Sys2Proof.Machine
end

