-- ==== Sys2Proof/Laws/Coding.lean ====
section
/-! SUPPORT. The Instruction Table row by row: the opcode byte, the operand bytes and the kind of the instruction a row gives,
and the rows the table leaves out (30_encoding.md R63, R64, R66). -/

namespace Sys2Proof

/-- What a populated row says: its instruction has the row's opcode byte and the operand bytes of its mode, is well-formed, and
its kind is not INVALID. -/
theorem tableRow_some {op : Byte} {row : Descriptor × (Byte → Byte → Instr)} (h : tableRow op = some row) (b1 b2 : Byte) :
    (row.2 b1 b2).opcode = op ∧ (row.2 b1 b2).operands = [b1, b2].take row.1.mode.operandBytes ∧
    (row.2 b1 b2).wf = true ∧ row.1.kind ≠ .invalid := by
  unfold tableRow at h
  split at h <;> first
    | (rename_i hop
       cases h
       refine ⟨BitVec.eq_of_toNat_eq (hop ▸ rfl), ?_, rfl, by decide⟩
       first
         | rfl
         | simp [Instr.operands, Mode.operandBytes])
    | exact absurd h (by simp)

/-- The populated rows are exactly those R64 does not list. -/
theorem tableRow_none_iff (op : Byte) : tableRow op = none ↔ isInvalidOpcode op = true := by
  have h := forall_byte (P := fun op => (tableRow op).isNone = true ↔ isInvalidOpcode op = true) (by decide +kernel) op
  simpa using h

theorem itab_of_row {op : Byte} {row : Descriptor × (Byte → Byte → Instr)} (h : tableRow op = some row) :
    itab op = row.1 := by
  simp [itab, h]

/-- The default table holds the INVALID descriptor at a listed value (R64). -/
theorem itab_of_invalid {op : Byte} (h : isInvalidOpcode op = true) : itab op = Descriptor.invalid := by
  simp [itab, (tableRow_none_iff op).2 h]

theorem assemble_of_row {op : Byte} {row : Descriptor × (Byte → Byte → Instr)} (h : tableRow op = some row) (b1 b2 : Byte) :
    assemble op b1 b2 = row.2 b1 b2 := by
  simp [assemble, h]

theorem assemble_of_invalid {op : Byte} (h : isInvalidOpcode op = true) (b1 b2 : Byte) : assemble op b1 b2 = .invalid op := by
  simp [assemble, (tableRow_none_iff op).2 h]

/-- Assembling keeps the opcode byte and the operand bytes the mode has, and gives a well-formed instruction. -/
theorem assemble_spec (op b1 b2 : Byte) :
    (assemble op b1 b2).opcode = op ∧ (assemble op b1 b2).operands = [b1, b2].take (itab op).mode.operandBytes ∧
    (assemble op b1 b2).wf = true := by
  cases h : tableRow op with
  | none =>
    have hi := (tableRow_none_iff op).1 h
    rw [assemble_of_invalid hi, itab_of_invalid hi]
    exact ⟨rfl, rfl, hi⟩
  | some row =>
    obtain ⟨h1, h2, h3, -⟩ := tableRow_some h b1 b2
    rw [assemble_of_row h, itab_of_row h]
    exact ⟨h1, h2, h3⟩

end Sys2Proof
end

