-- ==== Sys2Proof/Laws/Exec.lean ====
section
/-! SUPPORT. Everything the meaning of an instruction can do, said once: it completes, or it is undone by the fatal error of its
form. Claims about every instruction start from `exec_cases`. -/

namespace Sys2Proof.Machine

/-- What is common to every instruction that completes. -/
structure Completes (i : Instr) (s t : State) : Prop where
  cfg : t.cfg = s.cfg
  halted : t.halted = s.halted
  fault : t.fault = s.fault
  cycles : t.cycles = bif s.cfg.countCycles then s.cycles + i.operands.length else s.cycles
  mem : (storeAddress i s = none ∧ t.mem = s.mem) ∨
    ∃ a v, storeAddress i s = some a ∧ storeByte i s = some v ∧ region s.cfg a = .ram ∧ t.mem = s.mem.insert a.toNat v
  lowNibble : t.regs.f &&& 0x0F = s.regs.f &&& 0x0F

/-- Which fatal error the meaning of `i` raises from `s` (60_exceptions.md R163). -/
inductive RaisesCause (i : Instr) (s : State) : Cause → Prop where
  | unknownOpcode (op : Byte) : i = .invalid op → RaisesCause i s .unknownOpcode
  | writeViolation (a : Word) : storeAddress i s = some a → region s.cfg a ≠ .ram →
      RaisesCause i s (.unimplemented (.writeViolation a))
  | unimplementedMode (e8 : Byte) : i = .ldHlSpE8 e8 → RaisesCause i s (.unimplemented (.unimplementedMode .hlSpr))

/-- A step of `i` from `s` that its fatal error has undone. -/
def Undone (i : Instr) (s t : State) : Prop :=
  ∃ c now, t = raise c (some i.opcode) s now ∧ now.cfg = s.cfg ∧ now.fault = s.fault ∧ now.cycles = s.cycles ∧
    RaisesCause i s c

theorem storeAddress_decOf (r : GReg) (s : State) : storeAddress (Instr.decOf r) s = none := by cases r <;> rfl

theorem storeAddress_xorOf (r : GReg) (s : State) : storeAddress (Instr.xorOf r) s = none := by cases r <;> rfl

theorem storeAddress_ldOf (dst src : GReg) (s : State) : storeAddress (Instr.ldOf dst src) s = none := by
  cases dst <;> cases src <;> rfl

theorem storeAddress_ldImmOf (dst : GReg) (d8 : Byte) (s : State) : storeAddress (Instr.ldImmOf dst d8) s = none := by
  cases dst <;> rfl

theorem storeAddress_ldPairOf (rr : PairReg) (d16 : Word) (s : State) : storeAddress (Instr.ldPairOf rr d16) s = none := by
  cases rr <;> rfl

theorem storeAddress_ldIndHlOf (r : GReg) (s : State) :
    storeAddress (Instr.ldIndHlOf r) s = some (s.regs.getPair .hl) := by cases r <;> rfl

theorem storeByte_ldIndHlOf (r : GReg) (s : State) : storeByte (Instr.ldIndHlOf r) s = some (s.regs.get r) := by
  cases r <;> rfl

theorem operands_decOf (r : GReg) : (Instr.decOf r).operands = [] := by cases r <;> rfl

theorem operands_xorOf (r : GReg) : (Instr.xorOf r).operands = [] := by cases r <;> rfl

theorem operands_ldOf (dst src : GReg) : (Instr.ldOf dst src).operands = [] := by cases dst <;> cases src <;> rfl

theorem operands_ldImmOf (dst : GReg) (d8 : Byte) : (Instr.ldImmOf dst d8).operands = [d8] := by cases dst <;> rfl

theorem operands_ldPairOf (rr : PairReg) (d16 : Word) :
    (Instr.ldPairOf rr d16).operands = [loByte d16, hiByte d16] := by cases rr <;> rfl

theorem operands_ldIndHlOf (r : GReg) : (Instr.ldIndHlOf r).operands = [] := by cases r <;> rfl

/-- Two operand bytes passed, counted in one sum. -/
theorem tally_two (b : Bool) (n : Nat) :
    (bif b then (bif b then n + 1 else n) + 1 else (bif b then n + 1 else n)) = bif b then n + 2 else n := by
  cases b <;> rfl

/-- A store completes or is undone, as its latched address lies in the window or not. -/
theorem storeFetched_outcome {i : Instr} {s now : State} (hx : exec i s = .next (storeFetched i.opcode s now))
    (ha : storeAddress i s = some now.memDest) (hv : storeByte i s = some (loByte now.fetched)) (hops : i.operands = [])
    (hc : now.cfg = s.cfg) (hh : now.halted = s.halted)
    (hf : now.fault = s.fault) (hm : now.mem = s.mem) (hy : now.cycles = s.cycles) (hF : now.regs.f = s.regs.f) :
    ∃ t, exec i s = .next t ∧ (Completes i s t ∨ Undone i s t) := by
  refine ⟨_, hx, ?_⟩
  rcases storeFetched_cases i.opcode s now with ⟨hr, e⟩ | ⟨hr, e⟩ <;> rw [e]
  · exact .inl ⟨hc, hh, hf, by simp [hops, hy], .inr ⟨_, _, ha, hv, hc ▸ hr, by simp [hm]⟩, by simp [hF]⟩
  · exact .inr ⟨_, now, rfl, hc, hf, hy, .writeViolation _ ha (hc ▸ hr)⟩

/-- A relative jump completes. -/
theorem jumpRelative_completes {i : Instr} {op e8 : Byte} {cc : Cond} {s : State} (hx : exec i s = .next (jumpRelative op cc e8 s))
    (ha : storeAddress i s = none) (hops : i.operands = [e8]) :
    ∃ t, exec i s = .next t ∧ (Completes i s t ∨ Undone i s t) := by
  refine ⟨_, hx, .inl ?_⟩
  unfold jumpRelative
  constructor <;> dsimp only <;> split <;> simp [resolveRel8, hops, ha]

/-- The inversion of `exec`: every instruction answers a next state, completed or undone. -/
theorem exec_cases (i : Instr) (s : State) : ∃ t, exec i s = .next t ∧ (Completes i s t ∨ Undone i s t) := by
  induction i using Instr.by_family with
  | nop => exact ⟨_, exec_nop s, .inl ⟨by simp, by simp, by simp, by simp [Instr.operands], .inl ⟨rfl, by simp⟩, by simp⟩⟩
  | dec r =>
    refine ⟨_, exec_decOf r s, .inl ?_⟩
    constructor <;> simp [decReg, resolveReg, operands_decOf, storeAddress_decOf]
    exact (decFlags_spec _ _).2.2.2.2
  | xor r =>
    refine ⟨_, exec_xorOf r s, .inl ?_⟩
    constructor <;> simp [xorReg, resolveReg, operands_xorOf, storeAddress_xorOf]
    exact (xorFlags_spec _ _).2.2.2.2
  | ld dst src =>
    refine ⟨_, exec_ldOf dst src s, .inl ?_⟩
    constructor <;> simp [loadReg, resolveRegReg, operands_ldOf, storeAddress_ldOf]
  | ldImm dst d8 =>
    refine ⟨_, exec_ldImmOf dst d8 s, .inl ?_⟩
    constructor <;> simp [loadImm8, resolveImm8, operands_ldImmOf, storeAddress_ldImmOf]
  | ldPair rr d16 =>
    refine ⟨_, exec_ldPairOf rr d16 s, .inl ?_⟩
    constructor <;> simp [loadImm16, resolveImm16, operands_ldPairOf, storeAddress_ldPairOf, tally_two]
  | stHl r =>
    exact storeFetched_outcome (now := resolveMemReg .hl r (s.begin _)) (exec_ldIndHlOf r s)
      (by rw [storeAddress_ldIndHlOf]; simp [resolveMemReg]) (by rw [storeByte_ldIndHlOf]; simp [resolveMemReg])
      (operands_ldIndHlOf r)
      (by simp [resolveMemReg]) (by simp [resolveMemReg]) (by simp [resolveMemReg]) (by simp [resolveMemReg])
      (by simp [resolveMemReg]) (by simp [resolveMemReg])
  | stBc =>
    exact storeFetched_outcome (now := resolveMemReg .bc .a (s.begin _)) (exec_ldIndBcA s)
      (by simp [resolveMemReg, storeAddress]) (by simp [resolveMemReg, storeByte, RegFile.get]) rfl
      (by simp [resolveMemReg]) (by simp [resolveMemReg]) (by simp [resolveMemReg]) (by simp [resolveMemReg])
      (by simp [resolveMemReg]) (by simp [resolveMemReg])
  | stDe =>
    exact storeFetched_outcome (now := resolveMemReg .de .a (s.begin _)) (exec_ldIndDeA s)
      (by simp [resolveMemReg, storeAddress]) (by simp [resolveMemReg, storeByte, RegFile.get]) rfl
      (by simp [resolveMemReg]) (by simp [resolveMemReg]) (by simp [resolveMemReg]) (by simp [resolveMemReg])
      (by simp [resolveMemReg]) (by simp [resolveMemReg])
  | stInc =>
    exact storeFetched_outcome (now := resolveHlInc .a (s.begin _)) (exec_ldHliA s)
      (by simp [resolveHlInc, resolveMemReg, storeAddress]) (by simp [resolveHlInc, resolveMemReg, storeByte, RegFile.get]) rfl
      (by simp [resolveHlInc, resolveMemReg]) (by simp [resolveHlInc, resolveMemReg])
      (by simp [resolveHlInc, resolveMemReg]) (by simp [resolveHlInc, resolveMemReg])
      (by simp [resolveHlInc, resolveMemReg]) (by simp [resolveHlInc, resolveMemReg])
  | stDec =>
    exact storeFetched_outcome (now := resolveHlDec .a (s.begin _)) (exec_ldHldA s)
      (by simp [resolveHlDec, resolveMemReg, storeAddress]) (by simp [resolveHlDec, resolveMemReg, storeByte, RegFile.get]) rfl
      (by simp [resolveHlDec, resolveMemReg]) (by simp [resolveHlDec, resolveMemReg])
      (by simp [resolveHlDec, resolveMemReg]) (by simp [resolveHlDec, resolveMemReg])
      (by simp [resolveHlDec, resolveMemReg]) (by simp [resolveHlDec, resolveMemReg])
  | hlSp e8 => exact ⟨_, exec_ldHlSpE8 e8 s, .inr ⟨_, _, rfl, by simp, by simp, by simp, .unimplementedMode e8 rfl⟩⟩
  | jp a16 =>
    refine ⟨_, exec_jpA16 a16 s, .inl ?_⟩
    constructor <;> simp [resolveAddr16, Instr.operands, storeAddress, tally_two]
  | jrNz e8 => exact jumpRelative_completes (exec_jrNz e8 s) rfl rfl
  | jrZ e8 => exact jumpRelative_completes (exec_jrZ e8 s) rfl rfl
  | jrNc e8 => exact jumpRelative_completes (exec_jrNc e8 s) rfl rfl
  | jrC e8 => exact jumpRelative_completes (exec_jrC e8 s) rfl rfl
  | invalid op => exact ⟨_, exec_invalid op s, .inr ⟨_, _, rfl, by simp, by simp, by simp, .unknownOpcode op rfl⟩⟩

end Sys2Proof.Machine
end

