-- ==== Sys2Proof/Laws/Fetch.lean ====
section
/-! SUPPORT. What fetching an instruction can do: it gives the instruction whose bytes stand at PC, or raises `UnmappedRead` for
the first byte that cannot be read (40_engine.md R82, R96; 60_exceptions.md R165). -/

namespace Sys2Proof.Machine

@[simp] theorem readByte_clearLatches (s : State) (a : Word) : s.clearLatches.readByte a = s.readByte a := rfl

@[simp] theorem readByte_passOperand (s : State) (a : Word) : s.passOperand.readByte a = s.readByte a := rfl

@[simp] theorem readByte_latchOpcode (s : State) (op : Byte) (d : Descriptor) (a : Word) :
    (s.latchOpcode op d).readByte a = s.readByte a := rfl

@[simp] theorem readByte_begin (s : State) (op : Byte) (a : Word) : (s.begin op).readByte a = s.readByte a := rfl

/-- No mode has more than two operand bytes to fetch. -/
theorem fetchCount_le_two (m : Mode) : fetchCount m ≤ 2 := by cases m <;> decide

/-- Everything the fetch can do. -/
theorem fetchInstr_cases (s : State) :
    (∃ c, s.readByte s.regs.pc = .error c ∧ fetchInstr s = .raised (raise c none s s.clearLatches)) ∨
    ∃ op, s.readByte s.regs.pc = .ok op ∧
      ((fetchCount (itab op).mode = 0 ∧ fetchInstr s = .instr (assemble op 0 0)) ∨
       (fetchCount (itab op).mode = 1 ∧ ∃ b1, s.readByte (s.regs.pc + 1) = .ok b1 ∧
          fetchInstr s = .instr (assemble op b1 0)) ∨
       (fetchCount (itab op).mode = 2 ∧ ∃ b1 b2, s.readByte (s.regs.pc + 1) = .ok b1 ∧
          s.readByte (s.regs.pc + 1 + 1) = .ok b2 ∧ fetchInstr s = .instr (assemble op b1 b2)) ∨
       (1 ≤ fetchCount (itab op).mode ∧ ∃ c, s.readByte (s.regs.pc + 1) = .error c ∧
          fetchInstr s = .raised (raise c (some op) s (s.begin op))) ∨
       (fetchCount (itab op).mode = 2 ∧ ∃ b1 c, s.readByte (s.regs.pc + 1) = .ok b1 ∧
          s.readByte (s.regs.pc + 1 + 1) = .error c ∧
          fetchInstr s = .raised (raise c (some op) s (s.begin op).passOperand))) := by
  cases h0 : s.readByte s.regs.pc with
  | error c => exact .inl ⟨c, rfl, by simp only [fetchInstr, h0]⟩
  | ok op =>
    refine .inr ⟨op, rfl, ?_⟩
    have hn := fetchCount_le_two (itab op).mode
    match hm : fetchCount (itab op).mode with
    | 0 => exact .inl ⟨rfl, by simp only [fetchInstr, h0, hm, fetchOperands, List.getD_nil]⟩
    | 1 =>
      cases h1 : s.readByte (s.regs.pc + 1) with
      | error c =>
        exact .inr (.inr (.inr (.inl ⟨le_refl 1, c, rfl, by
          simp only [fetchInstr, h0, hm, fetchOperands, fetchByte, readByte_begin, State.begin_regs, RegFile.setPc_pc, h1]⟩)))
      | ok b1 =>
        exact .inr (.inl ⟨rfl, b1, rfl, by
          simp only [fetchInstr, h0, hm, fetchOperands, fetchByte, readByte_begin, State.begin_regs, RegFile.setPc_pc, h1]
          rfl⟩)
    | 2 =>
      cases h1 : s.readByte (s.regs.pc + 1) with
      | error c =>
        exact .inr (.inr (.inr (.inl ⟨by omega, c, rfl, by
          simp only [fetchInstr, h0, hm, fetchOperands, fetchByte, readByte_begin, State.begin_regs, RegFile.setPc_pc, h1]⟩)))
      | ok b1 =>
        cases h2 : s.readByte (s.regs.pc + 1 + 1) with
        | error c =>
          exact .inr (.inr (.inr (.inr ⟨rfl, b1, c, rfl, rfl, by
            simp only [fetchInstr, h0, hm, fetchOperands, fetchByte, readByte_begin, readByte_passOperand,
              State.begin_regs, RegFile.setPc_pc, State.passOperand_regs, h1, h2]⟩)))
        | ok b2 =>
          exact .inr (.inr (.inl ⟨rfl, b1, b2, rfl, rfl, by
            simp only [fetchInstr, h0, hm, fetchOperands, fetchByte, readByte_begin, readByte_passOperand,
              State.begin_regs, RegFile.setPc_pc, State.passOperand_regs, h1, h2]
            rfl⟩))
    | n + 3 => omega

/-- The step of a running core in a legal state is the fetch and then `exec`. -/
theorem step_running {s : State} (h : s.halted = false) (hl : s.legal = true) :
    step s = match fetchInstr s with
      | .raised t => .next t
      | .instr i => exec i s := by
  simp only [step, h, hl]
  rfl

/-- What a fatal error met while fetching says: an instruction byte at PC, PC+1 or PC+2 is unreadable. -/
def FetchUndone (s t : State) : Prop :=
  ∃ (k : Nat) (now : State), k ≤ 2 ∧ readable s.cfg (s.regs.pc + BitVec.ofNat 16 k) = false ∧
    t = raise (.unimplemented (.unmappedRead (s.regs.pc + BitVec.ofNat 16 k))) (s.readByte s.regs.pc).toOption s now ∧
    now.cfg = s.cfg ∧ now.fault = s.fault ∧ (s.cfg.countCycles = false → now.cycles = s.cycles)

/-- The inversion of `step`: a halted core stays, and a running core in a legal state takes a fatal error of its fetch or runs the
instruction whose opcode byte stands at PC. -/
theorem step_cases {s t : State} (h : step s = .next t) :
    (s.halted = true ∧ t = s) ∨
    (s.halted = false ∧ s.legal = true ∧
      (FetchUndone s t ∨ ∃ i, s.readByte s.regs.pc = .ok i.opcode ∧ i.wf = true ∧ exec i s = .next t)) := by
  cases hh : s.halted with
  | true =>
    simp only [step, hh] at h
    cases h
    exact .inl ⟨rfl, rfl⟩
  | false =>
    refine .inr ⟨rfl, ?_⟩
    cases hl : s.legal with
    | false =>
      simp only [step, hh, hl] at h
      cases h
    | true =>
      refine ⟨rfl, ?_⟩
      rw [step_running hh hl] at h
      rcases fetchInstr_cases s with ⟨c, h0, e⟩ | ⟨op, h0, hc⟩
      · rw [e] at h
        cases h
        obtain ⟨hr, rfl⟩ := (State.readByte_error_iff _ _ _).1 h0
        refine .inl ⟨0, s.clearLatches, by omega, by simpa using hr, by simp [h0, Except.toOption], by simp, by simp, by simp⟩
      · rcases hc with ⟨-, e⟩ | ⟨-, b1, -, e⟩ | ⟨-, b1, b2, -, -, e⟩ | ⟨-, c, h1, e⟩ | ⟨-, b1, c, -, h2, e⟩ <;> rw [e] at h
        · exact .inr ⟨_, by rw [(assemble_spec op 0 0).1, h0], (assemble_spec op 0 0).2.2, h⟩
        · exact .inr ⟨_, by rw [(assemble_spec op b1 0).1, h0], (assemble_spec op b1 0).2.2, h⟩
        · exact .inr ⟨_, by rw [(assemble_spec op b1 b2).1, h0], (assemble_spec op b1 b2).2.2, h⟩
        · cases h
          obtain ⟨hr, rfl⟩ := (State.readByte_error_iff _ _ _).1 h1
          exact .inl ⟨1, s.begin op, by omega, hr, by rw [h0]; rfl, by simp, by simp, by simp⟩
        · cases h
          obtain ⟨hr, rfl⟩ := (State.readByte_error_iff _ _ _).1 h2
          have e2 : s.regs.pc + 1 + 1 = s.regs.pc + BitVec.ofNat 16 2 := by rw [BitVec.add_assoc]; rfl
          rw [e2] at hr
          exact .inl ⟨2, (s.begin op).passOperand, by omega, hr, by rw [h0, e2]; rfl, by simp, by simp, by simp +contextual⟩

theorem step_halted {s : State} (h : s.halted = true) : step s = .next s := by
  simp [step, h]

end Sys2Proof.Machine
end

