-- ==== Sys2Proof/Laws/PerInstr.lean ====
section
/-! SUPPORT. The family `Encoding`: what the Instruction Table's row says of each instruction as syntax (30_encoding.md R61, R63,
R66). -/

namespace Sys2Proof.Laws.Encoding

/-- A well-formed instruction has as many operand bytes as the addressing mode of its opcode's row (R61), the row's kind is
INVALID for the INVALID opcodes alone, and the row gives the instruction back from its operand bytes, whatever follows them. -/
def Statement (i : Instr) : Prop :=
  i.wf = true →
    i.operands.length = (itab i.opcode).mode.operandBytes ∧
    ((itab i.opcode).kind = .invalid ↔ ∃ op, i = .invalid op) ∧
    ∀ x y, assemble i.opcode ((i.operands ++ [x, y]).getD 0 0) ((i.operands ++ [x, y]).getD 1 0) = i

/-- The lemma of a populated row, from its parts. -/
theorem populated {i : Instr} (hn : i.operands.length = (itab i.opcode).mode.operandBytes)
    (hk : decide ((itab i.opcode).kind = .invalid) = false) (hi : ∀ op, i ≠ .invalid op)
    (ha : ∀ x y, assemble i.opcode ((i.operands ++ [x, y]).getD 0 0) ((i.operands ++ [x, y]).getD 1 0) = i) : Statement i :=
  fun _ => ⟨hn, ⟨fun h => absurd h (of_decide_eq_false hk), fun ⟨op, h⟩ => absurd h (hi op)⟩, ha⟩

theorem nop : Statement .nop := populated rfl rfl (by simp) fun _ _ => rfl
theorem decB : Statement .decB := populated rfl rfl (by simp) fun _ _ => rfl
theorem decC : Statement .decC := populated rfl rfl (by simp) fun _ _ => rfl
theorem decD : Statement .decD := populated rfl rfl (by simp) fun _ _ => rfl
theorem decE : Statement .decE := populated rfl rfl (by simp) fun _ _ => rfl
theorem decH : Statement .decH := populated rfl rfl (by simp) fun _ _ => rfl
theorem decL : Statement .decL := populated rfl rfl (by simp) fun _ _ => rfl
theorem decA : Statement .decA := populated rfl rfl (by simp) fun _ _ => rfl
theorem xorB : Statement .xorB := populated rfl rfl (by simp) fun _ _ => rfl
theorem xorC : Statement .xorC := populated rfl rfl (by simp) fun _ _ => rfl
theorem xorD : Statement .xorD := populated rfl rfl (by simp) fun _ _ => rfl
theorem xorE : Statement .xorE := populated rfl rfl (by simp) fun _ _ => rfl
theorem xorH : Statement .xorH := populated rfl rfl (by simp) fun _ _ => rfl
theorem xorL : Statement .xorL := populated rfl rfl (by simp) fun _ _ => rfl
theorem xorA : Statement .xorA := populated rfl rfl (by simp) fun _ _ => rfl
theorem ldBcD16 (d16 : Word) : Statement (.ldBcD16 d16) := populated rfl rfl (by simp) fun _ _ =>
  congrArg Instr.ldBcD16 (wordOf_hiByte_loByte d16)
theorem ldIndBcA : Statement .ldIndBcA := populated rfl rfl (by simp) fun _ _ => rfl
theorem ldBD8 (d8 : Byte) : Statement (.ldBD8 d8) := populated rfl rfl (by simp) fun _ _ => rfl
theorem ldCD8 (d8 : Byte) : Statement (.ldCD8 d8) := populated rfl rfl (by simp) fun _ _ => rfl
theorem ldDeD16 (d16 : Word) : Statement (.ldDeD16 d16) := populated rfl rfl (by simp) fun _ _ =>
  congrArg Instr.ldDeD16 (wordOf_hiByte_loByte d16)
theorem ldIndDeA : Statement .ldIndDeA := populated rfl rfl (by simp) fun _ _ => rfl
theorem ldDD8 (d8 : Byte) : Statement (.ldDD8 d8) := populated rfl rfl (by simp) fun _ _ => rfl
theorem ldED8 (d8 : Byte) : Statement (.ldED8 d8) := populated rfl rfl (by simp) fun _ _ => rfl
theorem ldHlD16 (d16 : Word) : Statement (.ldHlD16 d16) := populated rfl rfl (by simp) fun _ _ =>
  congrArg Instr.ldHlD16 (wordOf_hiByte_loByte d16)
theorem ldHliA : Statement .ldHliA := populated rfl rfl (by simp) fun _ _ => rfl
theorem ldHD8 (d8 : Byte) : Statement (.ldHD8 d8) := populated rfl rfl (by simp) fun _ _ => rfl
theorem ldLD8 (d8 : Byte) : Statement (.ldLD8 d8) := populated rfl rfl (by simp) fun _ _ => rfl
theorem ldSpD16 (d16 : Word) : Statement (.ldSpD16 d16) := populated rfl rfl (by simp) fun _ _ =>
  congrArg Instr.ldSpD16 (wordOf_hiByte_loByte d16)
theorem ldHldA : Statement .ldHldA := populated rfl rfl (by simp) fun _ _ => rfl
theorem ldAD8 (d8 : Byte) : Statement (.ldAD8 d8) := populated rfl rfl (by simp) fun _ _ => rfl
theorem ldBB : Statement .ldBB := populated rfl rfl (by simp) fun _ _ => rfl
theorem ldBC : Statement .ldBC := populated rfl rfl (by simp) fun _ _ => rfl
theorem ldBD : Statement .ldBD := populated rfl rfl (by simp) fun _ _ => rfl
theorem ldBE : Statement .ldBE := populated rfl rfl (by simp) fun _ _ => rfl
theorem ldBH : Statement .ldBH := populated rfl rfl (by simp) fun _ _ => rfl
theorem ldBL : Statement .ldBL := populated rfl rfl (by simp) fun _ _ => rfl
theorem ldBA : Statement .ldBA := populated rfl rfl (by simp) fun _ _ => rfl
theorem ldCB : Statement .ldCB := populated rfl rfl (by simp) fun _ _ => rfl
theorem ldCC : Statement .ldCC := populated rfl rfl (by simp) fun _ _ => rfl
theorem ldCD : Statement .ldCD := populated rfl rfl (by simp) fun _ _ => rfl
theorem ldCE : Statement .ldCE := populated rfl rfl (by simp) fun _ _ => rfl
theorem ldCH : Statement .ldCH := populated rfl rfl (by simp) fun _ _ => rfl
theorem ldCL : Statement .ldCL := populated rfl rfl (by simp) fun _ _ => rfl
theorem ldCA : Statement .ldCA := populated rfl rfl (by simp) fun _ _ => rfl
theorem ldDB : Statement .ldDB := populated rfl rfl (by simp) fun _ _ => rfl
theorem ldDC : Statement .ldDC := populated rfl rfl (by simp) fun _ _ => rfl
theorem ldDD : Statement .ldDD := populated rfl rfl (by simp) fun _ _ => rfl
theorem ldDE : Statement .ldDE := populated rfl rfl (by simp) fun _ _ => rfl
theorem ldDH : Statement .ldDH := populated rfl rfl (by simp) fun _ _ => rfl
theorem ldDL : Statement .ldDL := populated rfl rfl (by simp) fun _ _ => rfl
theorem ldDA : Statement .ldDA := populated rfl rfl (by simp) fun _ _ => rfl
theorem ldEB : Statement .ldEB := populated rfl rfl (by simp) fun _ _ => rfl
theorem ldEC : Statement .ldEC := populated rfl rfl (by simp) fun _ _ => rfl
theorem ldED : Statement .ldED := populated rfl rfl (by simp) fun _ _ => rfl
theorem ldEE : Statement .ldEE := populated rfl rfl (by simp) fun _ _ => rfl
theorem ldEH : Statement .ldEH := populated rfl rfl (by simp) fun _ _ => rfl
theorem ldEL : Statement .ldEL := populated rfl rfl (by simp) fun _ _ => rfl
theorem ldEA : Statement .ldEA := populated rfl rfl (by simp) fun _ _ => rfl
theorem ldHB : Statement .ldHB := populated rfl rfl (by simp) fun _ _ => rfl
theorem ldHC : Statement .ldHC := populated rfl rfl (by simp) fun _ _ => rfl
theorem ldHD : Statement .ldHD := populated rfl rfl (by simp) fun _ _ => rfl
theorem ldHE : Statement .ldHE := populated rfl rfl (by simp) fun _ _ => rfl
theorem ldHH : Statement .ldHH := populated rfl rfl (by simp) fun _ _ => rfl
theorem ldHL : Statement .ldHL := populated rfl rfl (by simp) fun _ _ => rfl
theorem ldHA : Statement .ldHA := populated rfl rfl (by simp) fun _ _ => rfl
theorem ldLB : Statement .ldLB := populated rfl rfl (by simp) fun _ _ => rfl
theorem ldLC : Statement .ldLC := populated rfl rfl (by simp) fun _ _ => rfl
theorem ldLD : Statement .ldLD := populated rfl rfl (by simp) fun _ _ => rfl
theorem ldLE : Statement .ldLE := populated rfl rfl (by simp) fun _ _ => rfl
theorem ldLH : Statement .ldLH := populated rfl rfl (by simp) fun _ _ => rfl
theorem ldLL : Statement .ldLL := populated rfl rfl (by simp) fun _ _ => rfl
theorem ldLA : Statement .ldLA := populated rfl rfl (by simp) fun _ _ => rfl
theorem ldIndHlB : Statement .ldIndHlB := populated rfl rfl (by simp) fun _ _ => rfl
theorem ldIndHlC : Statement .ldIndHlC := populated rfl rfl (by simp) fun _ _ => rfl
theorem ldIndHlD : Statement .ldIndHlD := populated rfl rfl (by simp) fun _ _ => rfl
theorem ldIndHlE : Statement .ldIndHlE := populated rfl rfl (by simp) fun _ _ => rfl
theorem ldIndHlH : Statement .ldIndHlH := populated rfl rfl (by simp) fun _ _ => rfl
theorem ldIndHlL : Statement .ldIndHlL := populated rfl rfl (by simp) fun _ _ => rfl
theorem ldIndHlA : Statement .ldIndHlA := populated rfl rfl (by simp) fun _ _ => rfl
theorem ldAB : Statement .ldAB := populated rfl rfl (by simp) fun _ _ => rfl
theorem ldAC : Statement .ldAC := populated rfl rfl (by simp) fun _ _ => rfl
theorem ldAD : Statement .ldAD := populated rfl rfl (by simp) fun _ _ => rfl
theorem ldAE : Statement .ldAE := populated rfl rfl (by simp) fun _ _ => rfl
theorem ldAH : Statement .ldAH := populated rfl rfl (by simp) fun _ _ => rfl
theorem ldAL : Statement .ldAL := populated rfl rfl (by simp) fun _ _ => rfl
theorem ldAA : Statement .ldAA := populated rfl rfl (by simp) fun _ _ => rfl
theorem ldHlSpE8 (e8 : Byte) : Statement (.ldHlSpE8 e8) := populated rfl rfl (by simp) fun _ _ => rfl
theorem jrNz (e8 : Byte) : Statement (.jrNz e8) := populated rfl rfl (by simp) fun _ _ => rfl
theorem jrZ (e8 : Byte) : Statement (.jrZ e8) := populated rfl rfl (by simp) fun _ _ => rfl
theorem jrNc (e8 : Byte) : Statement (.jrNc e8) := populated rfl rfl (by simp) fun _ _ => rfl
theorem jrC (e8 : Byte) : Statement (.jrC e8) := populated rfl rfl (by simp) fun _ _ => rfl
theorem jpA16 (a16 : Word) : Statement (.jpA16 a16) := populated rfl rfl (by simp) fun _ _ =>
  congrArg Instr.jpA16 (wordOf_hiByte_loByte a16)
theorem invalid (op : Byte) : Statement (.invalid op) := by
  intro h
  have hi : isInvalidOpcode op = true := h
  refine ⟨?_, ?_, fun x y => assemble_of_invalid hi _ _⟩
  · simp [Instr.opcode, itab_of_invalid hi, Descriptor.invalid, Mode.operandBytes, Instr.operands]
  · simp [Instr.opcode, itab_of_invalid hi, Descriptor.invalid]

end Sys2Proof.Laws.Encoding
end

