-- ==== Sys2Proof/Laws/Run.lean ====
section
/-! SUPPORT. A run of the host's interface, one step at a time. -/

namespace Sys2Proof.Machine

theorem run_zero (s : State) : Sys2Proof.core.run 0 s = .next s := rfl

/-- A run of `k + 1` steps is a step and then `k` steps. -/
theorem run_succ (k : Nat) (s : State) :
    Sys2Proof.core.run (k + 1) s = match step s with
      | .next t => Sys2Proof.core.run k t
      | .fault r => .fault r
      | .refused r => .refused r := by
  change Host.Core.run Sys2Proof.core (Nat.succ k) s = _
  have e : Sys2Proof.core.step s = step s := rfl
  cases h : step s <;> rw [h] at e <;> simp [Host.Core.run, e]

/-- The Interpreter Loop of `k + 1` steps is a step and, if it left the core running, `k` more. -/
theorem interpret_succ (k : Nat) (s : State) :
    interpret (k + 1) s = match step s with
      | .next t => if stepReturns t then interpret k t else .next t
      | .fault r => .fault r
      | .refused r => .refused r := rfl

end Sys2Proof.Machine
end

