-- ==== Sys2Proof/Tests/Slice0.lean ====
section
/-! SUPPORT. Tests: words written out from the encoding of 30_encoding.md R62 and R63, the vectors of 95_test_vectors.md (their
ids are in the names), and for each statement with hypotheses a state that meets them together. -/

namespace Sys2Proof.Tests

open Sys2Proof.Machine Sys2Proof.Slice0

/-! ### Well-formedness -/

theorem test_wf_refuses_populated_opcode : (Instr.invalid 0x00).wf = false := by decide

theorem test_wf_refuses_neighbours_of_the_listed_ranges :
    ([0x02, 0x05, 0x06, 0x0D, 0x77, 0x78, 0x7F, 0xA8, 0xAD, 0xAF, 0xC3, 0xF8].map fun op => (Instr.invalid op).wf) =
      List.replicate 12 false := by decide

theorem test_wf_accepts_listed_opcodes :
    ([0x03, 0x04, 0x76, 0x7E, 0x80, 0xA7, 0xAE, 0xC2, 0xC4, 0xF7, 0xF9, 0xFF].map fun op => (Instr.invalid op).wf) =
      List.replicate 12 true := by decide

/-! ### Decoding: words written out bit by bit (R62: dst in bits 5..3, src in bits 2..0 and B=000 C=001 D=010 E=011 H=100 L=101
A=111; R63; a 16-bit operand's low byte is the second byte) -/

/-- `NOP` is the zero byte; `HALT`'s byte, the `CB` byte and an unassigned byte hold no instruction of the table (R64). -/
theorem test_decode_nop_invalid :
    decodeTableWord 8 0b00000000 = some .nop ∧
    decodeTableWord 8 0b01110110 = some (.invalid 0x76) ∧
    decodeTableWord 8 0b11001011 = some (.invalid 0xCB) ∧
    decodeTableWord 8 0b11010011 = some (.invalid 0xD3) := by decide

/-- `DEC r` is 00 rrr 101. -/
theorem test_decode_dec :
    decodeTableWord 8 0b00000101 = some .decB ∧
    decodeTableWord 8 0b00001101 = some .decC ∧
    decodeTableWord 8 0b00010101 = some .decD ∧
    decodeTableWord 8 0b00011101 = some .decE ∧
    decodeTableWord 8 0b00100101 = some .decH ∧
    decodeTableWord 8 0b00101101 = some .decL ∧
    decodeTableWord 8 0b00111101 = some .decA := by decide

/-- `XOR A,r` is 10101 rrr. -/
theorem test_decode_xor :
    decodeTableWord 8 0b10101000 = some .xorB ∧
    decodeTableWord 8 0b10101001 = some .xorC ∧
    decodeTableWord 8 0b10101010 = some .xorD ∧
    decodeTableWord 8 0b10101011 = some .xorE ∧
    decodeTableWord 8 0b10101100 = some .xorH ∧
    decodeTableWord 8 0b10101101 = some .xorL ∧
    decodeTableWord 8 0b10101111 = some .xorA := by decide

/-- `LD B,r` is 01 000 rrr. -/
theorem test_decode_ld_b :
    decodeTableWord 8 0b01000000 = some .ldBB ∧
    decodeTableWord 8 0b01000001 = some .ldBC ∧
    decodeTableWord 8 0b01000010 = some .ldBD ∧
    decodeTableWord 8 0b01000011 = some .ldBE ∧
    decodeTableWord 8 0b01000100 = some .ldBH ∧
    decodeTableWord 8 0b01000101 = some .ldBL ∧
    decodeTableWord 8 0b01000111 = some .ldBA := by decide

/-- `LD C,r` is 01 001 rrr. -/
theorem test_decode_ld_c :
    decodeTableWord 8 0b01001000 = some .ldCB ∧
    decodeTableWord 8 0b01001001 = some .ldCC ∧
    decodeTableWord 8 0b01001010 = some .ldCD ∧
    decodeTableWord 8 0b01001011 = some .ldCE ∧
    decodeTableWord 8 0b01001100 = some .ldCH ∧
    decodeTableWord 8 0b01001101 = some .ldCL ∧
    decodeTableWord 8 0b01001111 = some .ldCA := by decide

/-- `LD D,r` is 01 010 rrr. -/
theorem test_decode_ld_d :
    decodeTableWord 8 0b01010000 = some .ldDB ∧
    decodeTableWord 8 0b01010001 = some .ldDC ∧
    decodeTableWord 8 0b01010010 = some .ldDD ∧
    decodeTableWord 8 0b01010011 = some .ldDE ∧
    decodeTableWord 8 0b01010100 = some .ldDH ∧
    decodeTableWord 8 0b01010101 = some .ldDL ∧
    decodeTableWord 8 0b01010111 = some .ldDA := by decide

/-- `LD E,r` is 01 011 rrr. -/
theorem test_decode_ld_e :
    decodeTableWord 8 0b01011000 = some .ldEB ∧
    decodeTableWord 8 0b01011001 = some .ldEC ∧
    decodeTableWord 8 0b01011010 = some .ldED ∧
    decodeTableWord 8 0b01011011 = some .ldEE ∧
    decodeTableWord 8 0b01011100 = some .ldEH ∧
    decodeTableWord 8 0b01011101 = some .ldEL ∧
    decodeTableWord 8 0b01011111 = some .ldEA := by decide

/-- `LD H,r` is 01 100 rrr. -/
theorem test_decode_ld_h :
    decodeTableWord 8 0b01100000 = some .ldHB ∧
    decodeTableWord 8 0b01100001 = some .ldHC ∧
    decodeTableWord 8 0b01100010 = some .ldHD ∧
    decodeTableWord 8 0b01100011 = some .ldHE ∧
    decodeTableWord 8 0b01100100 = some .ldHH ∧
    decodeTableWord 8 0b01100101 = some .ldHL ∧
    decodeTableWord 8 0b01100111 = some .ldHA := by decide

/-- `LD L,r` is 01 101 rrr. -/
theorem test_decode_ld_l :
    decodeTableWord 8 0b01101000 = some .ldLB ∧
    decodeTableWord 8 0b01101001 = some .ldLC ∧
    decodeTableWord 8 0b01101010 = some .ldLD ∧
    decodeTableWord 8 0b01101011 = some .ldLE ∧
    decodeTableWord 8 0b01101100 = some .ldLH ∧
    decodeTableWord 8 0b01101101 = some .ldLL ∧
    decodeTableWord 8 0b01101111 = some .ldLA := by decide

/-- `LD A,r` is 01 111 rrr. -/
theorem test_decode_ld_a :
    decodeTableWord 8 0b01111000 = some .ldAB ∧
    decodeTableWord 8 0b01111001 = some .ldAC ∧
    decodeTableWord 8 0b01111010 = some .ldAD ∧
    decodeTableWord 8 0b01111011 = some .ldAE ∧
    decodeTableWord 8 0b01111100 = some .ldAH ∧
    decodeTableWord 8 0b01111101 = some .ldAL ∧
    decodeTableWord 8 0b01111111 = some .ldAA := by decide

/-- `LD r,d8` is 00 rrr 110, then the byte. -/
theorem test_decode_ld_d8 :
    decodeTableWord 16 0b1010010100000110 = some (.ldBD8 0xA5) ∧
    decodeTableWord 16 0b1010010100001110 = some (.ldCD8 0xA5) ∧
    decodeTableWord 16 0b1010010100010110 = some (.ldDD8 0xA5) ∧
    decodeTableWord 16 0b1010010100011110 = some (.ldED8 0xA5) ∧
    decodeTableWord 16 0b1010010100100110 = some (.ldHD8 0xA5) ∧
    decodeTableWord 16 0b1010010100101110 = some (.ldLD8 0xA5) ∧
    decodeTableWord 16 0b1010010100111110 = some (.ldAD8 0xA5) := by decide

/-- `LD rr,d16` is 00 pp 0001 with BC=00 DE=01 HL=10 SP=11, then the low and the high byte. -/
theorem test_decode_ld_d16 :
    decodeTableWord 24 0b0001001000110100_00000001 = some (.ldBcD16 0x1234) ∧
    decodeTableWord 24 0b0001001000110100_00010001 = some (.ldDeD16 0x1234) ∧
    decodeTableWord 24 0b0001001000110100_00100001 = some (.ldHlD16 0x1234) ∧
    decodeTableWord 24 0b0001001000110100_00110001 = some (.ldSpD16 0x1234) := by decide

/-- `LD (HL),r` is 01 110 rrr. -/
theorem test_decode_ld_hl_r :
    decodeTableWord 8 0b01110000 = some .ldIndHlB ∧
    decodeTableWord 8 0b01110001 = some .ldIndHlC ∧
    decodeTableWord 8 0b01110010 = some .ldIndHlD ∧
    decodeTableWord 8 0b01110011 = some .ldIndHlE ∧
    decodeTableWord 8 0b01110100 = some .ldIndHlH ∧
    decodeTableWord 8 0b01110101 = some .ldIndHlL ∧
    decodeTableWord 8 0b01110111 = some .ldIndHlA := by decide

/-- The stores of A are 00 pp 0010. -/
theorem test_decode_ld_ind_a :
    decodeTableWord 8 0b00000010 = some .ldIndBcA ∧
    decodeTableWord 8 0b00010010 = some .ldIndDeA ∧
    decodeTableWord 8 0b00100010 = some .ldHliA ∧
    decodeTableWord 8 0b00110010 = some .ldHldA := by decide

/-- `JP a16` is 0xC3; `JR cc,e8` is 001 cc 000 with NZ=00 Z=01 NC=10 C=11; `LD HL,SP+e8` is 0xF8. -/
theorem test_decode_jumps :
    decodeTableWord 24 0b0001001000110100_11000011 = some (.jpA16 0x1234) ∧
    decodeTableWord 16 0b1111101100100000 = some (.jrNz 0xFB) ∧
    decodeTableWord 16 0b1111101100101000 = some (.jrZ 0xFB) ∧
    decodeTableWord 16 0b1111101100110000 = some (.jrNc 0xFB) ∧
    decodeTableWord 16 0b1111101100111000 = some (.jrC 0xFB) ∧
    decodeTableWord 16 0b0000001011111000 = some (.ldHlSpE8 0x02) := by decide

/-- Bits above the row's are 0, a sequence that ends too early is refused by name, and an INVALID opcode takes one byte. -/
theorem test_decode_lengths :
    decodeTableWord 8 0x0506 = some (.ldBD8 0x00) ∧ decode [0x06] = .error (.missingOperand 0x06) ∧
    decode [0xC3, 0x00] = .error (.missingOperand 0xC3) ∧ decode [] = .error .noOpcode ∧
    decode [0x76, 0x12] = .ok (.invalid 0x76, [0x12]) := ⟨rfl, rfl, rfl, rfl, rfl⟩

theorem test_encode : encode (.jpA16 0x1234) = [0xC3, 0x34, 0x12] ∧ encode (.ldHE) = [0x63] ∧ encode (.jrC 0x80) = [0x38, 0x80] :=
  ⟨rfl, rfl, rfl⟩

/-! ### Steps: the vectors of 95_test_vectors.md -/

/-- The reset state with the registers `x` and the bytes `bs` at the PC of `x`. -/
def start (x : RegFile) (bs : List Byte) : State :=
  { State.reset with regs := x, mem := State.reset.mem.place x.pc bs }

/-- The registers of the reset state, at the entry address of the vectors. -/
def r0 : RegFile := RegFile.reset 0x0100

/-- The state a step answers, or the state itself where it answers none. -/
def stepOf (s : State) : State :=
  match step s with
  | .next t => t
  | .fault _ => s
  | .refused _ => s

/-- A step answers a next state with these registers, running. -/
def Runs (s : State) (x : RegFile) : Prop :=
  step s = .next (stepOf s) ∧ (stepOf s).regs = x ∧ (stepOf s).halted = false

/-- A step answers a next state with these registers, running, that holds the byte `v` at `a`. -/
def RunsAndStores (s : State) (x : RegFile) (a : Nat) (v : Byte) : Prop :=
  Runs s x ∧ (stepOf s).mem.lookup a = some v

/-- A step answers the halted state of a fatal error: registers as before, this record. -/
def Faults (s : State) (r : FaultRecord) : Prop :=
  step s = .next (stepOf s) ∧ (stepOf s).regs = s.regs ∧ (stepOf s).halted = true ∧ (stepOf s).fault = some r ∧
  (stepOf s).mem = s.mem

theorem test_V_NOP_1 :
    Runs (start { r0 with a := 0x12, f := 0xF0, h := 0xC0, l := 0x00 } [0x00]) { r0 with a := 0x12, f := 0xF0, h := 0xC0, l := 0x00, pc := 0x0101 } :=
  ⟨rfl, rfl, rfl⟩

theorem test_V_INV_1 : Faults (start r0 [0x76]) ⟨.unknownOpcode, 0x0100, some 0x76⟩ :=
  ⟨rfl, rfl, rfl, rfl, rfl⟩

theorem test_V_INV_2 : Faults (start { r0 with f := 0xF0 } [0xCB, 0x37]) ⟨.unknownOpcode, 0x0100, some 0xCB⟩ :=
  ⟨rfl, rfl, rfl, rfl, rfl⟩

theorem test_V_DEC_1 :
    Runs (start { r0 with b := 0x05, f := 0x10 } [0x05]) { r0 with f := 0x50, b := 0x04, pc := 0x0101 } :=
  ⟨rfl, rfl, rfl⟩

theorem test_V_DEC_4 :
    Runs (start { r0 with b := 0x00, f := 0x10 } [0x05]) { r0 with f := 0x70, b := 0xFF, pc := 0x0101 } :=
  ⟨rfl, rfl, rfl⟩

theorem test_V_DEC_5 :
    Runs (start { r0 with a := 0x10, f := 0x80 } [0x3D]) { r0 with a := 0x0F, f := 0x60, pc := 0x0101 } :=
  ⟨rfl, rfl, rfl⟩

theorem test_V_DEC_6 :
    Runs (start { r0 with c := 0x80 } [0x0D]) { r0 with f := 0x60, c := 0x7F, pc := 0x0101 } :=
  ⟨rfl, rfl, rfl⟩

theorem test_V_DEC_7 :
    Runs (start { r0 with d := 0xFF } [0x15]) { r0 with f := 0x40, d := 0xFE, pc := 0x0101 } :=
  ⟨rfl, rfl, rfl⟩

theorem test_V_DEC_8 :
    Runs (start { r0 with e := 0x21, f := 0xB0 } [0x1D]) { r0 with f := 0x50, e := 0x20, pc := 0x0101 } :=
  ⟨rfl, rfl, rfl⟩

theorem test_V_DEC_9 :
    Runs (start { r0 with h := 0xC0, l := 0x00 } [0x25]) { r0 with f := 0x60, h := 0xBF, l := 0x00, pc := 0x0101 } :=
  ⟨rfl, rfl, rfl⟩

theorem test_V_DEC_10 :
    Runs (start { r0 with h := 0xC0, l := 0x00 } [0x2D]) { r0 with f := 0x60, h := 0xC0, l := 0xFF, pc := 0x0101 } :=
  ⟨rfl, rfl, rfl⟩

theorem test_V_XOR_1 :
    Runs (start { r0 with a := 0xFF, f := 0xF0 } [0xAF]) { r0 with a := 0x00, f := 0x80, pc := 0x0101 } :=
  ⟨rfl, rfl, rfl⟩

theorem test_V_XOR_2 :
    Runs (start { r0 with a := 0x5A, b := 0x0F, f := 0xF0 } [0xA8]) { r0 with a := 0x55, f := 0x00, b := 0x0F, pc := 0x0101 } :=
  ⟨rfl, rfl, rfl⟩

theorem test_V_XOR_3 :
    Runs (start { r0 with a := 0x5A, c := 0x5A } [0xA9]) { r0 with a := 0x00, f := 0x80, c := 0x5A, pc := 0x0101 } :=
  ⟨rfl, rfl, rfl⟩

theorem test_V_XOR_4 :
    Runs (start { r0 with a := 0x5A, f := 0x70 } [0xAA]) { r0 with a := 0x5A, f := 0x00, pc := 0x0101 } :=
  ⟨rfl, rfl, rfl⟩

theorem test_V_XOR_5 :
    Runs (start { r0 with a := 0x5A, e := 0xFF } [0xAB]) { r0 with a := 0xA5, f := 0x00, e := 0xFF, pc := 0x0101 } :=
  ⟨rfl, rfl, rfl⟩

theorem test_V_XOR_6 :
    Runs (start { r0 with h := 0xC0, l := 0xDE } [0xAC]) { r0 with a := 0xC0, f := 0x00, h := 0xC0, l := 0xDE, pc := 0x0101 } :=
  ⟨rfl, rfl, rfl⟩

theorem test_V_XOR_7 :
    Runs (start { r0 with a := 0xDE, h := 0xC0, l := 0xDE } [0xAD]) { r0 with a := 0x00, f := 0x80, h := 0xC0, l := 0xDE, pc := 0x0101 } :=
  ⟨rfl, rfl, rfl⟩

theorem test_V_LD_1 :
    Runs (start { r0 with a := 0x12, b := 0x34, f := 0xF0 } [0x78]) { r0 with a := 0x34, f := 0xF0, b := 0x34, pc := 0x0101 } :=
  ⟨rfl, rfl, rfl⟩

theorem test_V_LD_2 :
    Runs (start { r0 with a := 0x12 } [0x7F]) { r0 with a := 0x12, pc := 0x0101 } :=
  ⟨rfl, rfl, rfl⟩

theorem test_V_LD_3 :
    Runs (start { r0 with h := 0x12, l := 0xC4 } [0x65]) { r0 with h := 0xC4, l := 0xC4, pc := 0x0101 } :=
  ⟨rfl, rfl, rfl⟩

theorem test_V_LD_4 :
    Runs (start { r0 with a := 0x80, h := 0xC0, l := 0x00 } [0x6F]) { r0 with a := 0x80, h := 0xC0, l := 0x80, pc := 0x0101 } :=
  ⟨rfl, rfl, rfl⟩

theorem test_V_LD_5 :
    Runs (start r0 [0x06, 0x05]) { r0 with b := 0x05, pc := 0x0102 } :=
  ⟨rfl, rfl, rfl⟩

theorem test_V_LD_6 :
    Runs (start r0 [0x3E, 0xFF]) { r0 with a := 0xFF, pc := 0x0102 } :=
  ⟨rfl, rfl, rfl⟩

theorem test_V_LD_7 :
    Runs (start r0 [0x01, 0x34, 0x12]) { r0 with b := 0x12, c := 0x34, pc := 0x0103 } :=
  ⟨rfl, rfl, rfl⟩

theorem test_V_LD_8 :
    Runs (start r0 [0x11, 0xCD, 0xAB]) { r0 with d := 0xAB, e := 0xCD, pc := 0x0103 } :=
  ⟨rfl, rfl, rfl⟩

theorem test_V_LD_9 :
    Runs (start r0 [0x21, 0x00, 0xC0]) { r0 with h := 0xC0, l := 0x00, pc := 0x0103 } :=
  ⟨rfl, rfl, rfl⟩

theorem test_V_LD_10 :
    Runs (start r0 [0x31, 0xFE, 0xFF]) { r0 with sp := 0xFFFE, pc := 0x0103 } :=
  ⟨rfl, rfl, rfl⟩

theorem test_V_LD_11 :
    RunsAndStores (start { r0 with a := 0x5A, h := 0xC0, l := 0x00 } [0x22])
      { r0 with a := 0x5A, h := 0xC0, l := 0x01, pc := 0x0101 } 0xC000 0x5A :=
  ⟨⟨rfl, rfl, rfl⟩, rfl⟩

theorem test_V_LD_12 :
    RunsAndStores (start { r0 with a := 0xAA, h := 0xDF, l := 0xFF } [0x32])
      { r0 with a := 0xAA, h := 0xDF, l := 0xFE, pc := 0x0101 } 0xDFFF 0xAA :=
  ⟨⟨rfl, rfl, rfl⟩, rfl⟩

theorem test_V_LD_13 :
    RunsAndStores (start { r0 with a := 0x01, h := 0xC0, l := 0x00 } [0x32])
      { r0 with a := 0x01, h := 0xBF, l := 0xFF, pc := 0x0101 } 0xC000 0x01 :=
  ⟨⟨rfl, rfl, rfl⟩, rfl⟩

theorem test_V_LD_14 :
    RunsAndStores (start { r0 with b := 0x7E, h := 0xC0, l := 0x00 } [0x70])
      { r0 with b := 0x7E, h := 0xC0, l := 0x00, pc := 0x0101 } 0xC000 0x7E :=
  ⟨⟨rfl, rfl, rfl⟩, rfl⟩

theorem test_V_LD_15 :
    RunsAndStores (start { r0 with h := 0xDF, l := 0xFE } [0x74])
      { r0 with h := 0xDF, l := 0xFE, pc := 0x0101 } 0xDFFE 0xDF :=
  ⟨⟨rfl, rfl, rfl⟩, rfl⟩

theorem test_V_LD_16 :
    RunsAndStores (start { r0 with h := 0xDF, l := 0xFE } [0x75])
      { r0 with h := 0xDF, l := 0xFE, pc := 0x0101 } 0xDFFE 0xFE :=
  ⟨⟨rfl, rfl, rfl⟩, rfl⟩

theorem test_V_LD_17 :
    RunsAndStores (start { r0 with a := 0x99, b := 0xC1, c := 0x23 } [0x02])
      { r0 with a := 0x99, b := 0xC1, c := 0x23, pc := 0x0101 } 0xC123 0x99 :=
  ⟨⟨rfl, rfl, rfl⟩, rfl⟩

theorem test_V_LD_18 :
    RunsAndStores (start { r0 with a := 0x01, d := 0xDF, e := 0xFF } [0x12])
      { r0 with a := 0x01, d := 0xDF, e := 0xFF, pc := 0x0101 } 0xDFFF 0x01 :=
  ⟨⟨rfl, rfl, rfl⟩, rfl⟩

theorem test_V_LD_19 : Faults (start { r0 with a := 0x11 } [0x77]) ⟨.unimplemented (.writeViolation 0x0000), 0x0100, some 0x77⟩ :=
  ⟨rfl, rfl, rfl, rfl, rfl⟩

theorem test_V_LD_20 : Faults (start { r0 with a := 0x11, h := 0xBF, l := 0xFF } [0x22]) ⟨.unimplemented (.writeViolation 0xBFFF), 0x0100, some 0x22⟩ :=
  ⟨rfl, rfl, rfl, rfl, rfl⟩

theorem test_V_LD_21 : Faults (start { r0 with a := 0x11, h := 0xE0, l := 0x00 } [0x22]) ⟨.unimplemented (.writeViolation 0xE000), 0x0100, some 0x22⟩ :=
  ⟨rfl, rfl, rfl, rfl, rfl⟩

theorem test_V_LD_22 : Faults (start { r0 with sp := 0xD000 } [0xF8, 0x02]) ⟨.unimplemented (.unimplementedMode .hlSpr), 0x0100, some 0xF8⟩ :=
  ⟨rfl, rfl, rfl, rfl, rfl⟩

theorem test_V_LD_23 : Faults (start { r0 with pc := 0x7FFF } [0x06]) ⟨.unimplemented (.unmappedRead 0x8000), 0x7FFF, some 0x06⟩ :=
  ⟨rfl, rfl, rfl, rfl, rfl⟩

theorem test_V_JP_1 :
    Runs (start { r0 with pc := 0x0003 } [0xC3, 0x00, 0x01]) { r0 with pc := 0x0100 } :=
  ⟨rfl, rfl, rfl⟩

theorem test_V_JP_2 :
    Runs (start r0 [0xC3, 0x34, 0x12]) { r0 with pc := 0x1234 } :=
  ⟨rfl, rfl, rfl⟩

theorem test_V_JP_4_next : Faults (start { r0 with pc := 0x8000 } []) ⟨.unimplemented (.unmappedRead 0x8000), 0x8000, none⟩ :=
  ⟨rfl, rfl, rfl, rfl, rfl⟩

theorem test_V_JR_1 :
    Runs (start { r0 with pc := 0x0105 } [0x20, 0xFB]) { r0 with pc := 0x0102 } :=
  ⟨rfl, rfl, rfl⟩

theorem test_V_JR_2 :
    Runs (start { r0 with pc := 0x0105, f := 0x80 } [0x20, 0xFB]) { r0 with f := 0x80, pc := 0x0107 } :=
  ⟨rfl, rfl, rfl⟩

theorem test_V_JR_3 :
    Runs (start { r0 with f := 0x80 } [0x28, 0x02]) { r0 with f := 0x80, pc := 0x0104 } :=
  ⟨rfl, rfl, rfl⟩

theorem test_V_JR_4 :
    Runs (start { r0 with f := 0x70 } [0x28, 0x02]) { r0 with f := 0x70, pc := 0x0102 } :=
  ⟨rfl, rfl, rfl⟩

theorem test_V_JR_5 :
    Runs (start r0 [0x30, 0x7F]) { r0 with pc := 0x0181 } :=
  ⟨rfl, rfl, rfl⟩

theorem test_V_JR_6 :
    Runs (start { r0 with f := 0x10 } [0x30, 0x7F]) { r0 with f := 0x10, pc := 0x0102 } :=
  ⟨rfl, rfl, rfl⟩

theorem test_V_JR_7 :
    Runs (start { r0 with f := 0x10 } [0x38, 0x80]) { r0 with f := 0x10, pc := 0x0082 } :=
  ⟨rfl, rfl, rfl⟩

theorem test_V_JR_8 :
    Runs (start { r0 with f := 0x80 } [0x38, 0x80]) { r0 with f := 0x80, pc := 0x0102 } :=
  ⟨rfl, rfl, rfl⟩

theorem test_V_JR_11 :
    Runs (start { r0 with pc := 0x0010 } [0x20, 0x80]) { r0 with pc := 0xFF92 } :=
  ⟨rfl, rfl, rfl⟩

theorem test_V_JR_12 : Faults (start { r0 with pc := 0x7FFF } [0x20]) ⟨.unimplemented (.unmappedRead 0x8000), 0x7FFF, some 0x20⟩ :=
  ⟨rfl, rfl, rfl, rfl, rfl⟩

/-- The halted state V-INV-1 leaves. -/
def halted1 : State := stepOf (start r0 [0x76])

theorem test_V_INV_5_V_HLT_1 : step halted1 = .next halted1 ∧ stepReturns halted1 = false ∧ traceRecord halted1 = none :=
  ⟨rfl, rfl, rfl⟩

theorem test_V_RST_2 : halted1.init = { State.reset with mem := halted1.mem } := rfl

theorem test_V_RST_1 : State.reset.regs = ⟨0, 0, 0, 0, 0, 0, 0, 0, 0, 0x0100⟩ ∧ State.reset.halted = false ∧
    State.reset.fault = none ∧ State.reset.mem = [] := ⟨rfl, rfl, rfl, rfl⟩

/-- The trace records of vectors S1 and V-LD-22. -/
theorem test_S1_and_V_LD_22_trace :
    traceRecord (start { r0 with pc := 0x0000 } [0xAF]) = some ⟨0x0000, 0xAF, "XOR A,A"⟩ ∧
    traceRecord (start r0 [0xF8, 0x02]) = some ⟨0x0100, 0xF8, "LD HL,SP+e8"⟩ := ⟨rfl, rfl⟩

/-- S6: `MemWrite(0xC010, 2, 0xBEEF)` and back, and the fault at 0xDFFF. -/
theorem test_S6 :
    ((State.reset.writeWord 0xC010 0xBEEF).toOption.map fun t => (t.mem, (t.readWord 0xC010).toOption)) =
      some ([(0xC010, 0xEF), (0xC011, 0xBE)], some 0xBEEF) ∧
    (State.reset.writeWord 0xDFFF 0xBEEF).toOption = none := ⟨rfl, rfl⟩

/-- The tally counts operand bytes only where the launch asks for it (R195). -/
theorem test_cycles :
    (stepOf { start r0 [0x01, 0x34, 0x12] with cfg := { Config.default with countCycles := true } }).cycles = 2 ∧
    (stepOf (start r0 [0x01, 0x34, 0x12])).cycles = 0 := ⟨rfl, rfl⟩

/-- The first step from reset runs the instruction `withFetchWord` places. -/
theorem test_withFetchWord : step (State.reset.withFetchWord 24 0x1234C3) =
    exec (.jpA16 0x1234) (State.reset.withFetchWord 24 0x1234C3) := rfl

/-- U8: a launch state with a non-zero low nibble of F is refused. -/
theorem test_U8_refused : step (start { r0 with f := 0x01 } [0x00]) = .refused .illegalLaunchState := rfl

/-- D26: over an extended table a 16-bit source is stored by the 16-bit helper. -/
theorem test_engine_16_bit_store :
    (engineStep (fun _ => ⟨.ld, "LD (HL),SP", .mrR, .hl, .sp, none, none⟩)
      (start { r0 with h := 0xC0, sp := 0xBEEF } [0x00])).mem = [(0x0100, 0x00), (0xC000, 0xEF), (0xC001, 0xBE)] := rfl

/-- R97: a kind without a handler. -/
theorem test_engine_unhandled_kind :
    (engineStep (fun _ => ⟨.other 9, "RET", .imp, .noReg, .noReg, none, none⟩) (start r0 [0xC9])).fault =
      some ⟨.unimplemented (.unimplementedKind (.other 9)), 0x0100, some 0xC9⟩ := rfl

/-! ### Witnesses: for each statement with hypotheses, a state and operands that meet them all -/

/-- The registers with the pointer HL at `hi:lo`. -/
def rHl (hi lo : Byte) : RegFile := { r0 with h := hi, l := lo }

/-- A launch whose ROM image is shorter than the ROM region (R54). -/
def shortImage (x : RegFile) (bs : List Byte) : State :=
  { start x bs with cfg := { Config.default with romSize := 0x0102 } }

/-- A launch that counts cycles. -/
def counting (x : RegFile) (bs : List Byte) : State :=
  { start x bs with cfg := { Config.default with countCycles := true } }

theorem witness_StepRunsDecodedInstruction :
    Running (start r0 [0x06, 0x05]) ∧ decode [0x06, 0x05] = .ok (.ldBD8 0x05, []) ∧
    ∀ (k : Nat) (b : Byte), [0x06, 0x05][k]? = some b → (start r0 [0x06, 0x05]).readByte (0x0100 + BitVec.ofNat 16 k) = .ok b := by
  refine ⟨⟨rfl, rfl⟩, rfl, fun k b h => ?_⟩
  match k with
  | 0 => cases h; rfl
  | 1 => cases h; rfl
  | k + 2 => cases h

/-- The fetch clauses of the statements of the results of `NOP`, `DEC`, `XOR`, `LD`, `JP` and `JR`: a form of each length whose bytes
stand at PC, and one whose last byte is the first unreadable one. -/
theorem witness_FaultsOfFetchOnly_runs :
    ∀ p ∈ [(Instr.decB, r0), (.jrNz 0xFB, { r0 with pc := 0x7FFE }), (.jpA16 0x1234, { r0 with pc := 0xDFFD })],
    Running (start p.2 (encode p.1)) ∧ (encode p.1).map Except.ok =
      (List.range (encode p.1).length).map fun k => (start p.2 (encode p.1)).readByte (byteAddress (start p.2 (encode p.1)) k) := by
  simp only [List.forall_mem_cons]
  exact ⟨⟨⟨rfl, rfl⟩, rfl⟩, ⟨⟨rfl, rfl⟩, rfl⟩, ⟨⟨rfl, rfl⟩, rfl⟩, nofun⟩

theorem witness_FaultsOfFetchOnly_raises :
    ∀ p ∈ [(Instr.decB, { r0 with pc := 0x8000 }, 0), (.jrNz 0xFB, { r0 with pc := 0x7FFF }, 1), (.jpA16 0x1234, { r0 with pc := 0xDFFE }, 2)],
    Running (start p.2.1 ((encode p.1).take p.2.2)) ∧ p.2.2 < (encode p.1).length ∧
    ((encode p.1).take p.2.2).map Except.ok = ((List.range p.2.2).map fun k =>
      (start p.2.1 ((encode p.1).take p.2.2)).readByte (byteAddress (start p.2.1 ((encode p.1).take p.2.2)) k)) ∧
    readable Config.default (byteAddress (start p.2.1 ((encode p.1).take p.2.2)) p.2.2) = false := by
  simp only [List.forall_mem_cons]
  exact ⟨⟨⟨rfl, rfl⟩, by decide, rfl, rfl⟩, ⟨⟨rfl, rfl⟩, by decide, rfl, rfl⟩, ⟨⟨rfl, rfl⟩, by decide, rfl, rfl⟩, nofun⟩

theorem witness_HaltedCoreStaysAsItIs :
    halted1.halted = true ∧ (start r0 [0x76]).halted = false ∧ step (start r0 [0x76]) = .next halted1 := ⟨rfl, rfl, rfl⟩

theorem witness_StepAnswersOnEveryLegalState :
    State.reset.legal = true ∧ (start { r0 with f := 0x0F } []).halted = false ∧ (start { r0 with f := 0x0F } []).legal = false ∧
    { State.reset with cfg := { Config.default with ramLimit := 0x10001 } }.legal = false := ⟨rfl, rfl, rfl, rfl⟩

/-- At each boundary of the regions (R43), and past a short image. -/
theorem witness_UnreadableOpcodeRaises :
    (∀ a ∈ [0x8000#16, 0xBFFF#16, 0xE000#16, 0xFFFF#16],
      Running (start { r0 with pc := a } []) ∧ readable (start { r0 with pc := a } []).cfg a = false) ∧
    Running (shortImage { r0 with pc := 0x0102 } []) ∧ readable (shortImage r0 []).cfg 0x0102 = false := by
  refine ⟨?_, ⟨rfl, rfl⟩, rfl⟩
  simp only [List.forall_mem_cons]
  exact ⟨⟨⟨rfl, rfl⟩, rfl⟩, ⟨⟨rfl, rfl⟩, rfl⟩, ⟨⟨rfl, rfl⟩, rfl⟩, ⟨⟨rfl, rfl⟩, rfl⟩, nofun⟩

theorem witness_UnreadableOperandRaises_first :
    Running (start { r0 with pc := 0x7FFF } [0x06]) ∧ (start { r0 with pc := 0x7FFF } [0x06]).readByte 0x7FFF = .ok 0x06 ∧
    (itab 0x06).mode ≠ .hlSpr ∧ 1 ≤ (itab 0x06).mode.operandBytes ∧ readable Config.default 0x8000 = false :=
  ⟨⟨rfl, rfl⟩, rfl, by decide, by decide, rfl⟩

theorem witness_UnreadableOperandRaises_second :
    Running (start { r0 with pc := 0xDFFE } [0xC3]) ∧ (start { r0 with pc := 0xDFFE } [0xC3]).readByte 0xDFFE = .ok 0xC3 ∧
    (itab 0xC3).mode ≠ .hlSpr ∧ 2 ≤ (itab 0xC3).mode.operandBytes ∧ readable Config.default 0xDFFF = true ∧
    readable Config.default 0xE000 = false := ⟨⟨rfl, rfl⟩, rfl, by decide, by decide, rfl, rfl⟩

/-- An INVALID opcode at the last readable address. -/
theorem witness_InvalidOpcodeRaises :
    Running (start { r0 with pc := 0xDFFF } [0x76]) ∧ isInvalidOpcode 0x76 = true ∧
    (start { r0 with pc := 0xDFFF } [0x76]).readByte 0xDFFF = .ok 0x76 := ⟨⟨rfl, rfl⟩, rfl, rfl⟩

theorem witness_DecResultFlagsAndFrame :
    ∃ d : Descriptor, d.kind = .dec ∧ d.mode = .r ∧ isReg16 d.reg1 = true := ⟨⟨.dec, "DEC BC", .r, .bc, .noReg, none, none⟩, by decide⟩

theorem witness_XorResultFlagsAndFrame :
    ∃ d : Descriptor, d.kind = .xor ∧ d.mode = .r ∧ isReg16 d.reg1 = true := ⟨⟨.xor, "XOR A,HL", .r, .hl, .noReg, none, none⟩, by decide⟩

theorem witness_XorSelfGivesZeroAndZeroFlag : (start { r0 with a := 0xFF, f := 0xF0 } [0xAF]).legal = true := rfl

/-- The four store statements: their pointer at each edge of the window, inside and outside. -/
theorem witness_stores :
    region Config.default (wordOf 0xC0 0x00) = .ram ∧ region Config.default (wordOf 0xDF 0xFF) = .ram ∧
    region Config.default (wordOf 0xBF 0xFF) ≠ .ram ∧ region Config.default (wordOf 0xE0 0x00) ≠ .ram ∧
    region Config.default (wordOf 0x7F 0xFF) ≠ .ram := by decide

/-- The pointer of a store at an edge of the window, in each of the three pairs. -/
theorem witness_store_pointers :
    (start (rHl 0xC0 0x00) [0x70]).regs.getPair .hl = 0xC000 ∧
    wordOf (start { r0 with b := 0xDF, c := 0xFF } [0x02]).regs.b 0xFF = 0xDFFF ∧
    wordOf (start { r0 with d := 0xE0 } [0x12]).regs.d 0x00 = 0xE000 := ⟨rfl, rfl, rfl⟩

/-- The byte after the opcode is not readable. -/
theorem witness_LoadHlSpOffsetRaises :
    Running (start { r0 with pc := 0x7FFF } [0xF8]) ∧ (start { r0 with pc := 0x7FFF } [0xF8]).readByte 0x7FFF = .ok 0xF8 :=
  ⟨⟨rfl, rfl⟩, rfl⟩

theorem witness_OnlyJumpsLeaveTheSequence :
    (start { r0 with pc := 0xFFFF } []).halted = false ∧
    exec (.ldBD8 0x05) (start { r0 with pc := 0xFFFF } []) = .next (loadImm8 0x06 .b 0x05 (start { r0 with pc := 0xFFFF } [])) ∧
    (loadImm8 0x06 .b 0x05 (start { r0 with pc := 0xFFFF } [])).halted = false ∧ (∀ a, Instr.ldBD8 0x05 ≠ .jpA16 a) ∧
    ∀ e, Instr.ldBD8 0x05 ≠ .jrNz e ∧ Instr.ldBD8 0x05 ≠ .jrZ e ∧ Instr.ldBD8 0x05 ≠ .jrNc e ∧ Instr.ldBD8 0x05 ≠ .jrC e :=
  ⟨rfl, rfl, rfl, nofun, fun _ => ⟨nofun, nofun, nofun, nofun⟩⟩

theorem witness_RegionsPartitionTheAddressSpace :
    Config.default.wf = true ∧
    ([0x0000#16, 0x7FFF#16, 0x8000#16, 0xBFFF#16, 0xC000#16, 0xDFFF#16, 0xE000#16, 0xFFFF#16].map (region Config.default)) =
      [.rom, .rom, .unmapped, .unmapped, .ram, .ram, .unmapped, .unmapped] := by decide

theorem witness_ByteReadAnswersOrRaises :
    region Config.default 0xC000 = .ram ∧ (region (shortImage r0 []).cfg 0x0101 = .rom ∧ (0x0101#16).toNat < 0x0102) ∧
    region Config.default 0x8000 = .unmapped ∧ (region (shortImage r0 []).cfg 0x0102 = .rom ∧ 0x0102 ≤ (0x0102#16).toNat) := by decide

theorem witness_ByteWriteChangesOneByteOrRaises :
    region Config.default 0xC000 = .ram ∧ region Config.default 0xDFFF = .ram ∧ region Config.default 0xBFFF ≠ .ram ∧
    region Config.default 0xE000 ≠ .ram ∧ region Config.default 0x0000 ≠ .ram := by decide

theorem witness_WordWriteThenReadReturnsIt :
    Config.default.wf = true ∧ (∀ a ∈ [0xC000#16, 0xDFFE#16], 0xC000 ≤ a.toNat ∧ a.toNat + 1 < 0xE000) := ⟨rfl, by simp⟩

/-- The clauses of the two helpers: both bytes readable, the first not, the second not; both stored, the high one not, the low one
not. -/
theorem witness_WordHelpersArePairsOfBytes :
    (start { r0 with pc := 0xDFFE } [0x34, 0x12]).readByte 0xDFFE = .ok 0x34 ∧
    (start { r0 with pc := 0xDFFE } [0x34, 0x12]).readByte (0xDFFE + 1) = .ok 0x12 ∧
    (start { r0 with pc := 0xDFFE } [0x34, 0x12]).readByte 0xBFFF = .error (.unimplemented (.unmappedRead 0xBFFF)) ∧
    (start { r0 with pc := 0xDFFE } [0x34, 0x12]).readByte 0xDFFF = .ok 0x12 ∧
    (start { r0 with pc := 0xDFFE } [0x34, 0x12]).readByte (0xDFFF + 1) = .error (.unimplemented (.unmappedRead 0xE000)) ∧
    region Config.default (0xDFFF + 1) ≠ .ram ∧
    (region Config.default (0xBFFF + 1) = .ram ∧ region Config.default 0xBFFF ≠ .ram) ∧
    (region Config.default (0xDFFE + 1) = .ram ∧ region Config.default 0xDFFE = .ram) :=
  ⟨rfl, rfl, rfl, rfl, rfl, by decide, by decide, by decide⟩

/-- A step of `XOR A,A`, for the statements about every step: a legal running state, nothing recorded. -/
theorem witness_step :
    step (start r0 [0xAF]) = .next (stepOf (start r0 [0xAF])) ∧ (start r0 [0xAF]).regs.f &&& 0x0F = 0 ∧
    (start r0 [0xAF]).halted = false ∧ (start r0 [0xAF]).fault = none := ⟨rfl, rfl, rfl, rfl⟩

/-- An instruction other than `DEC` and `XOR`, and flags with F.C clear. -/
theorem witness_OnlyDecAndXorWriteFlags :
    exec .nop (start r0 []) = .next ((start r0 []).begin 0x00) ∧ (∀ r, Instr.nop ≠ Instr.decOf r ∧ Instr.nop ≠ Instr.xorOf r) ∧
    flagC (start r0 []).regs.f = false := ⟨rfl, fun r => by cases r <;> exact ⟨nofun, nofun⟩, rfl⟩

/-- An instruction other than `LD SP,d16`. -/
theorem witness_OnlyLoadSpWritesSp :
    exec (.ldHlSpE8 0x02) (start r0 [0xF8]) = .next (stepOf (start r0 [0xF8])) ∧ ∀ d16, Instr.ldHlSpE8 0x02 ≠ .ldSpD16 d16 := by
  exact ⟨rfl, nofun⟩

/-- A store at 0xC000, and the address after it. -/
theorem witness_OnlyTheStoredByteChanges :
    exec .ldHliA (start (rHl 0xC0 0x00) [0x22]) = .next (stepOf (start (rHl 0xC0 0x00) [0x22])) ∧
    storeAddress .ldHliA (start (rHl 0xC0 0x00) [0x22]) ≠ some 0xC001 := ⟨rfl, by decide⟩

theorem witness_StepKeepsParametersAndRom :
    step (start r0 [0xAF]) = .next (stepOf (start r0 [0xAF])) ∧ region (start r0 [0xAF]).cfg 0x7FFF = .rom := ⟨rfl, by decide⟩

theorem witness_FatalErrorsArePrecise :
    (start r0 [0x76]).halted = false ∧ (start r0 [0x76]).fault = none ∧ step (start r0 [0x76]) = .next halted1 ∧
    halted1.halted = true := ⟨rfl, rfl, rfl, rfl⟩

/-- One state for each cause the default table reaches. -/
theorem witness_ReachableCausesOfTheDefaultTable :
    ∀ p ∈ [(r0, 0x76#8, Cause.unknownOpcode, (0x0100 : Word)),
      ({ r0 with pc := 0x7FFF }, 0x06#8, .unimplemented (.unmappedRead 0x8000), 0x7FFF),
      (r0, 0x77#8, .unimplemented (.writeViolation 0x0000), 0x0100),
      (r0, 0xF8#8, .unimplemented (.unimplementedMode .hlSpr), 0x0100)],
    (start p.1 [p.2.1]).halted = false ∧ (start p.1 [p.2.1]).fault = none ∧
    step (start p.1 [p.2.1]) = .next (stepOf (start p.1 [p.2.1])) ∧
    (stepOf (start p.1 [p.2.1])).fault = some ⟨p.2.2.1, p.2.2.2, some p.2.1⟩ := by
  simp only [List.forall_mem_cons]
  exact ⟨⟨rfl, rfl, rfl, rfl⟩, ⟨rfl, rfl, rfl, rfl⟩, ⟨rfl, rfl, rfl, rfl⟩, ⟨rfl, rfl, rfl, rfl⟩, nofun⟩

/-- A halted state with a record, which a step keeps. -/
theorem witness_FaultRecordIsWrittenOnce :
    step halted1 = .next halted1 ∧ halted1.halted = true ∧ halted1.fault = some ⟨.unknownOpcode, 0x0100, some 0x76⟩ :=
  ⟨rfl, rfl, rfl⟩

/-- Each storing pointer at the byte after PC, in the window. -/
theorem witness_StoreIsSeenByTheNextFetch :
    ∀ i ∈ [Instr.ldIndHlB, .ldIndHlC, .ldIndHlD, .ldIndHlE, .ldIndHlH, .ldIndHlL, .ldIndHlA, .ldHliA, .ldHldA, .ldIndBcA, .ldIndDeA],
    let s := start ⟨0x76, 0, 0xC0, 0x01, 0xC0, 0x01, 0xC0, 0x01, 0, 0xC000⟩ (encode i)
    storeAddress i s = some (s.regs.pc + 1) ∧ (storeByte i s).isSome = true ∧ region s.cfg (s.regs.pc + 1) = .ram ∧
    step s = .next (stepOf s) ∧ exec i s = .next (stepOf s) ∧ s.halted = false ∧ (stepOf s).halted = false := by
  simp only [List.forall_mem_cons]
  exact ⟨⟨rfl, rfl, rfl, rfl, rfl, rfl, rfl⟩, ⟨rfl, rfl, rfl, rfl, rfl, rfl, rfl⟩, ⟨rfl, rfl, rfl, rfl, rfl, rfl, rfl⟩,
    ⟨rfl, rfl, rfl, rfl, rfl, rfl, rfl⟩, ⟨rfl, rfl, rfl, rfl, rfl, rfl, rfl⟩, ⟨rfl, rfl, rfl, rfl, rfl, rfl, rfl⟩,
    ⟨rfl, rfl, rfl, rfl, rfl, rfl, rfl⟩, ⟨rfl, rfl, rfl, rfl, rfl, rfl, rfl⟩, ⟨rfl, rfl, rfl, rfl, rfl, rfl, rfl⟩,
    ⟨rfl, rfl, rfl, rfl, rfl, rfl, rfl⟩, ⟨rfl, rfl, rfl, rfl, rfl, rfl, rfl⟩, nofun⟩

/-- Two states that differ in every latch, and whose steps answer. -/
theorem witness_LatchesDoNotInfluenceTheStep :
    (start r0 [0xAF]).forgetLatches =
      { start r0 [0xAF] with curOpcode := 0x76, curInst := itab 0x05, fetched := 1, memDest := 2, destIsMem := true }.forgetLatches ∧
    step (start r0 [0xAF]) = .next (stepOf (start r0 [0xAF])) := ⟨rfl, rfl⟩

/-- The refusing clause of the same statement. -/
theorem witness_LatchesDoNotInfluenceTheStep_refused :
    step (start { r0 with f := 0x01 } []) = .refused .illegalLaunchState := rfl

theorem witness_CyclesCountOperandBytes :
    (counting r0 []).halted = false ∧
    exec (.jpA16 0x1234) (counting r0 []) = .next ((resolveAddr16 0x1234 ((counting r0 []).begin 0xC3)).jumpTo 0x1234) ∧
    ((resolveAddr16 0x1234 ((counting r0 []).begin 0xC3)).jumpTo 0x1234).halted = false := ⟨rfl, rfl, rfl⟩

theorem witness_TraceRecordOfDecodedInstruction :
    halted1.halted = true ∧ Running (start { r0 with pc := 0x8000 } []) ∧ readable Config.default 0x8000 = false ∧
    Running (start r0 [0xF8]) ∧ (start r0 [0xF8]).readByte 0x0100 = .ok 0xF8 := ⟨rfl, ⟨rfl, rfl⟩, rfl, ⟨rfl, rfl⟩, rfl⟩

theorem witness_EveryStepKeepsTheInvariant :
    (start r0 [0xAF]).Inv ∧ step (start r0 [0xAF]) = .next (stepOf (start r0 [0xAF])) := ⟨⟨rfl, rfl, rfl, fun _ => rfl⟩, rfl⟩

/-- The invariant in a halted state with a record. -/
theorem witness_EveryStepKeepsTheInvariant_halted : halted1.Inv ∧ step halted1 = .next halted1 :=
  ⟨⟨rfl, rfl, rfl, fun _ => rfl⟩, rfl⟩

theorem witness_DecodeOfEncodeIsTheInstruction : (Instr.jpA16 0xFFFF).wf = true ∧ (Instr.invalid 0xFF).wf = true := ⟨rfl, rfl⟩

theorem witness_EncodeOfDecodeIsTheBytes :
    decode [0xC3, 0xFF, 0xFF, 0x00] = .ok (.jpA16 0xFFFF, [0x00]) ∧ 3 ≤ [0xC3#8, 0xFF#8, 0xFF#8].length ∧
    (itab 0xC3).mode.operandBytes ≤ [0xFF#8, 0xFF#8].length ∧ [0xFF#8].length < (itab 0xC3).mode.operandBytes ∧
    (itab 0x76).mode.operandBytes ≤ ([] : List Byte).length :=
  ⟨rfl, by decide, by decide, by decide, by decide⟩

theorem witness_InvalidOpcodesAreTheListed164 : isInvalidOpcode 0xFF = true ∧ isInvalidOpcode 0x03 = true := ⟨rfl, rfl⟩

theorem witness_LengthFollowsTheMode : (Instr.ldHlSpE8 0x80).wf = true ∧ (Instr.invalid 0x80).wf = true := ⟨rfl, rfl⟩

theorem witness_StepIsTheEngineOnTheDefaultTable : (start r0 [0xAF]).legal = true := rfl

/-- A descriptor in each mode, which its resolution leaves: one that resolves from registers and the two auto-modify modes. -/
theorem witness_ResolutionTouchesNoMemoryAndNoFlag :
    ∀ m ∈ [Mode.imp, .r, .mrR, .hliR, .hldR],
    ∃ t, enginePhaseResolve ⟨.ld, "", m, .hl, .a, none, none⟩ (start (rHl 0xC0 0x00) []) = .done t := by
  simp only [List.forall_mem_cons]
  exact ⟨⟨_, rfl⟩, ⟨_, rfl⟩, ⟨_, rfl⟩, ⟨_, rfl⟩, ⟨_, rfl⟩, nofun⟩

/-- A descriptor in each mode that reads `NONE`: as its pointer or sole operand, with a real source, and as its source. -/
theorem witness_ResolvingNoRegisterRaises :
    ∀ d ∈ [(⟨.dec, "", .r, .noReg, .noReg, none, none⟩ : Descriptor), ⟨.ld, "", .mrR, .noReg, .a, none, none⟩,
      ⟨.ld, "", .rR, .a, .noReg, none, none⟩, ⟨.ld, "", .mrR, .hl, .noReg, none, none⟩, ⟨.ld, "", .hliR, .hl, .noReg, none, none⟩,
      ⟨.ld, "", .hldR, .hl, .noReg, none, none⟩],
    ((d.mode = .r ∨ d.mode = .mrR) ∧ d.reg1 = .noReg) ∨
      ((d.mode = .rR ∨ d.mode = .mrR ∨ d.mode = .hliR ∨ d.mode = .hldR) ∧ d.reg2 = .noReg) := by
  decide

theorem witness_ModesOutsideTheListRaise :
    (∃ d : Descriptor, d.kind = .dec ∧ d.mode ≠ .r) ∧ (∃ d : Descriptor, d.kind = .xor ∧ d.mode ≠ .r) ∧
    ∀ m ∈ [Mode.imp, .r, .d16, .rel8], ∃ d : Descriptor, d.kind = .ld ∧ d.mode = m :=
  ⟨⟨⟨.dec, "", .mrR, .hl, .b, none, none⟩, by decide⟩, ⟨⟨.xor, "", .rD8, .a, .noReg, none, none⟩, by decide⟩,
    fun m _ => ⟨⟨.ld, "", m, .hl, .a, none, none⟩, rfl, rfl⟩⟩

/-- A jump descriptor outside the list: a relative jump that is always taken, and an absolute one without a condition. -/
theorem witness_OtherJumpDescriptorsRaise :
    ∀ d ∈ [(⟨.jp, "JR e8", .rel8, .noReg, .noReg, some .always, none⟩ : Descriptor), ⟨.jp, "JP a16", .d16, .noReg, .noReg, none, none⟩],
    d.kind = .jp ∧ ¬ (d.mode = .d16 ∧ d.cond = some .always) ∧ ¬ (d.mode = .rel8 ∧ ∃ cc, cc ≠ .always ∧ d.cond = some cc) := by
  simp [eq_comm]

/-- The arms of the `LD` rule: a byte stored, a word stored, each turned away, a register written, `NONE` written. -/
theorem witness_LoadExecuteRule :
    let toMem : Word → State := fun a => { start r0 [] with destIsMem := true, memDest := a }
    (toMem 0xC000).destIsMem = true ∧ isReg16 .sp = true ∧ isReg16 .a = false ∧ (start r0 []).destIsMem = false ∧
    (∃ t, (toMem 0xC000).writeByte 0xC000 0x12 = .ok t) ∧ (∃ t, (toMem 0xDFFE).writeWord 0xDFFE 0x1234 = .ok t) ∧
    (∃ c, (toMem 0xE000).writeByte 0xE000 0x12 = .error c) ∧ (∃ c, (toMem 0xDFFF).writeWord 0xDFFF 0x1234 = .error c) ∧
    (∃ x, writeReg r0 .a 0x12 = .ok x) ∧ (∃ c, writeReg r0 .noReg 0x12 = .error c) :=
  ⟨rfl, rfl, rfl, rfl, ⟨_, rfl⟩, ⟨_, rfl⟩, ⟨_, rfl⟩, ⟨_, rfl⟩, ⟨_, rfl⟩, ⟨_, rfl⟩⟩

/-- A descriptor of the kind `LD` in each mode of that rule. -/
theorem witness_LoadExecuteRule_modes :
    ∀ m ∈ [Mode.hlSpr, .rR, .rD8, .rD16, .mrR, .hliR, .hldR], ∃ d : Descriptor, d.kind = .ld ∧ d.mode = m :=
  fun m _ => ⟨⟨.ld, "", m, .hl, .sp, none, none⟩, rfl, rfl⟩

/-- A kind without a handler in each mode whose resolution can end. -/
theorem witness_UnhandledKindRaises :
    (start r0 [0xC9]).halted = false ∧ (start r0 [0xC9]).readByte 0x0100 = .ok 0xC9 ∧
    ∀ m ∈ [Mode.imp, .r, .rR, .rD8, .rD16, .d16, .mrR, .hliR, .hldR, .rel8],
      (⟨.other 9, "RET", m, .hl, .a, none, none⟩ : Descriptor).kind = .other 9 ∧
      Resolves ⟨.other 9, "RET", m, .hl, .a, none, none⟩ (start r0 [0xC9]) := by
  refine ⟨rfl, rfl, ?_⟩
  simp only [List.forall_mem_cons]
  exact ⟨⟨trivial, trivial⟩, ⟨trivial, nofun⟩, ⟨trivial, nofun⟩, ⟨trivial, rfl⟩, ⟨trivial, rfl, rfl⟩, ⟨trivial, rfl, rfl⟩, ⟨trivial, nofun, nofun⟩,
    ⟨trivial, nofun⟩, ⟨trivial, nofun⟩, ⟨trivial, rfl⟩, nofun⟩

theorem witness_EngineIsPreciseOverAnyTable :
    halted1.halted = true ∧ (start r0 [0x76]).regs.f &&& 0x0F = 0 ∧ (start r0 [0x76]).halted = false ∧
    (engineStep itab (start r0 [0x76])).halted = true := ⟨rfl, rfl, rfl, rfl⟩

end Sys2Proof.Tests
end

section
/-! PROOFS. The register-file operations and the reset state (10_state.md R20 to R23, R35), on the bit-level laws of the
byte helpers and of one flag argument. -/

namespace Sys2Proof

theorem zext16_eq_append (v : Byte) : zext16 v = 0#8 ++ v :=
  BitVec.setWidth_eq_append (by decide)

theorem loByte_eq_setWidth (v : Word) : loByte v = v.setWidth 8 :=
  (BitVec.setWidth_eq_extractLsb' (by decide)).symm

theorem hiByte_eq_setWidth_ushiftRight (v : Word) : hiByte v = (v >>> 8).setWidth 8 := by
  ext i hi
  simp [hiByte]

end Sys2Proof

namespace Sys2Proof.Machine

/-! ### Register reads and writes -/

/-- Settles O21: an 8-bit register is extended by a zero byte, and every other name reads as its definition. -/
theorem registerReadWidensAndPairs : Obligations.RegisterReadWidensAndPairs := by
  intro x
  have widen : ∀ v : Byte, (Except.ok (zext16 v) : Except Cause Word) = .ok (0#8 ++ v) :=
    fun v => congrArg Except.ok (zext16_eq_append v)
  refine ⟨widen x.a, widen x.f, widen x.b, widen x.c, widen x.d, widen x.e, widen x.h, widen x.l, ?_⟩
  exact ⟨rfl, rfl, rfl, rfl, rfl, rfl, rfl⟩

/-- Settles O22: each name's write is one record update, whose bytes are the low and the high byte of the value. -/
theorem registerWriteMasksAndSplits : Obligations.RegisterWriteMasksAndSplits := by
  intro x v
  rw [← loByte_eq_setWidth, ← hiByte_eq_setWidth_ushiftRight]
  exact ⟨rfl, rfl, rfl, rfl, rfl, rfl, rfl, rfl, rfl, rfl, rfl, rfl, rfl, rfl, rfl⟩

/-! ### Flags and conditions -/

/-- The value a flag takes from its argument and its old value (R22). -/
def FlagArg.newValue (arg : FlagArg) (old : Bool) : Bool :=
  match arg with
  | .set => true
  | .clear => false
  | .unchanged => old

/-- A flag argument decides the one bit its mask names and keeps every other. -/
theorem FlagArg.getLsbD_apply_twoPow (arg : FlagArg) (f : Byte) {j : Nat} (hj : j < 8) (k : Nat) :
    (arg.apply (BitVec.twoPow 8 j) f).getLsbD k = if k = j then arg.newValue (f.getLsbD k) else f.getLsbD k := by
  obtain rfl | hk := eq_or_ne k j
  · cases arg <;> simp [FlagArg.apply, FlagArg.newValue, hj]
  · have hmask : (BitVec.twoPow 8 j).getLsbD k = false := by simp [hk.symm]
    cases arg with
    | set => simp [FlagArg.apply, hmask, hk]
    | clear => simpa [FlagArg.apply, hmask, hk] using BitVec.lt_of_getLsbD
    | unchanged => simp [FlagArg.apply, hk]

/-- The four masks name bits 7 to 4 (R15). -/
theorem setFlags_eq_apply_twoPow (z n h c : FlagArg) (f : Byte) :
    setFlags z n h c f =
      c.apply (BitVec.twoPow 8 4) (h.apply (BitVec.twoPow 8 5) (n.apply (BitVec.twoPow 8 6) (z.apply (BitVec.twoPow 8 7) f))) :=
  rfl

theorem getLsbD_setFlags (z n h c : FlagArg) (f : Byte) (k : Nat) :
    (setFlags z n h c f).getLsbD k =
      if k = 7 then z.newValue (f.getLsbD 7) else if k = 6 then n.newValue (f.getLsbD 6)
      else if k = 5 then h.newValue (f.getLsbD 5) else if k = 4 then c.newValue (f.getLsbD 4)
      else f.getLsbD k := by
  rw [setFlags_eq_apply_twoPow]
  simp (disch := decide) only [FlagArg.getLsbD_apply_twoPow]
  split_ifs <;> simp_all

/-- Settles O23: bit by bit; no argument's mask reaches bits 3 to 0. -/
theorem setFlagsWritesOnlyNamedBits : Obligations.SetFlagsWritesOnlyNamedBits := by
  refine ⟨fun b => rfl, fun z n h c f => ?_⟩
  have bit := getLsbD_setFlags z n h c f
  refine ⟨bit 7, bit 6, bit 5, bit 4, fun k hk => ?_⟩
  have h7 : k ≠ 7 := by omega
  have h6 : k ≠ 6 := by omega
  have h5 : k ≠ 5 := by omega
  have h4 : k ≠ 4 := by omega
  rw [bit k, if_neg h7, if_neg h6, if_neg h5, if_neg h4]

/-- Settles O24: the two negated conditions hold exactly where their flag is false. -/
theorem conditionsReadZeroAndCarry : Obligations.ConditionsReadZeroAndCarry := by
  intro f
  have negated : ∀ b : Bool, (!b) = true ↔ b = false := fun b => Iff.of_eq (Bool.not_eq_true' b)
  exact ⟨rfl, negated (flagZ f), Iff.rfl, negated (flagC f), Iff.rfl⟩

/-! ### Reset -/

/-- Settles O45: the field laws of `init`; the reset state is already the one `init` builds. -/
theorem initGivesTheResetState : Obligations.InitGivesTheResetState := by
  refine ⟨fun s => ?_, rfl⟩
  exact ⟨s.init_regs, s.init_halted, s.init_fault, s.init_curOpcode, s.init_curInst, s.init_fetched, s.init_memDest,
    s.init_destIsMem, s.init_cycles, s.init_mem, s.init_cfg⟩

end Sys2Proof.Machine
end

section
/-! PROOFS. The regions and the bus helpers (20_memory.md R41 to R45, R55): what each region means in numbers, where a byte
read answers, and what the two accesses of a 16-bit helper answer together. -/

namespace Sys2Proof.Machine

open Sys2Proof.Slice0

/-! ### Regions -/

theorem Config.ordered_of_wf {c : Config} (h : c.wf = true) :
    c.romLimit ≤ c.ramBase ∧ c.ramBase ≤ c.ramLimit ∧ c.ramLimit ≤ 0x10000 := by
  simpa [Config.wf, and_assoc] using h

theorem region_eq_rom_iff (c : Config) (a : Word) : region c a = .rom ↔ a.toNat < c.romLimit := by
  unfold region
  split_ifs with hrom <;> simp [hrom]

theorem region_eq_unmapped_iff (c : Config) (a : Word) :
    region c a = .unmapped ↔ c.romLimit ≤ a.toNat ∧ (a.toNat < c.ramBase ∨ c.ramLimit ≤ a.toNat) := by
  unfold region
  split_ifs <;> simp <;> omega

/-- The ROM test comes first, so the window is the RAM region because it begins at or past `romLimit` (R5). -/
theorem region_eq_ram_iff {c : Config} (hc : c.wf = true) (a : Word) :
    region c a = .ram ↔ c.ramBase ≤ a.toNat ∧ a.toNat < c.ramLimit := by
  obtain ⟨hrom, -, -⟩ := Config.ordered_of_wf hc
  unfold region
  split_ifs <;> simp <;> omega

/-- Settles O25: each region's range, one lemma for each. -/
theorem regionsPartitionTheAddressSpace : Obligations.RegionsPartitionTheAddressSpace := by
  intro c a hc
  exact ⟨region_eq_rom_iff c a, region_eq_ram_iff hc a, region_eq_unmapped_iff c a⟩

/-! ### Byte accesses -/

theorem readable_of_rom {c : Config} {a : Word} (h : region c a = .rom) : readable c a = decide (a.toNat < c.romSize) := by
  simp [readable, h]

theorem readable_of_unmapped {c : Config} {a : Word} (h : region c a = .unmapped) : readable c a = false := by
  simp [readable, h]

/-- Settles O26: the first two cases are the readable addresses, the last two the others. -/
theorem byteReadAnswersOrRaises : Obligations.ByteReadAnswersOrRaises := by
  intro s a
  rw [State.readByte_ok_iff, State.readByte_error_iff]
  constructor
  · rintro (hram | ⟨hrom, himage⟩)
    · exact ⟨readable_of_ram hram, rfl⟩
    · exact ⟨by simp [readable_of_rom hrom, himage], rfl⟩
  · rintro (hunmapped | ⟨hrom, hpast⟩)
    · exact ⟨readable_of_unmapped hunmapped, rfl⟩
    · exact ⟨by simp [readable_of_rom hrom, hpast], rfl⟩

/-- Listing a byte at an address of the window is a store (R42). -/
theorem stored_insert {s : State} {a : Word} (h : region s.cfg a = .ram) (v : Byte) :
    Stored a v s { s with mem := s.mem.insert a.toNat v } :=
  ⟨State.readByte_stored_self s a v h, fun x hx => State.readByte_stored_other s a x v hx⟩

/-- Settles O27: a write that answers lists one byte, and a listed byte is a store. -/
theorem byteWriteChangesOneByteOrRaises : Obligations.ByteWriteChangesOneByteOrRaises := by
  intro s a v
  exact ⟨fun h => ⟨_, State.writeByte_ram h v, stored_insert h v, rfl⟩, fun h => State.writeByte_not_ram h v⟩

/-! ### Word accesses -/

/-- The two byte reads of a 16-bit read, little-endian (R44). -/
theorem State.readWord_ok {s : State} {a : Word} {lo hi : Byte} (hlo : s.readByte a = .ok lo)
    (hhi : s.readByte (a + 1) = .ok hi) : s.readWord a = .ok (wordOf hi lo) := by
  simp only [State.readWord, hlo, hhi]

/-- The two byte writes of a 16-bit write in the window, the high byte first (R45). -/
theorem State.writeWord_stored {s : State} {a : Word} (ha : region s.cfg a = .ram) (ha1 : region s.cfg (a + 1) = .ram)
    (v : Word) : ∃ s1 t, s.writeWord a v = .ok t ∧ Stored (a + 1) (hiByte v) s s1 ∧ Stored a (loByte v) s1 t := by
  have ha' : region ({ s with mem := s.mem.insert (a + 1).toNat (hiByte v) } : State).cfg a = .ram := ha
  refine ⟨_, _, ?_, stored_insert ha1 (hiByte v), stored_insert ha' (loByte v)⟩
  rw [State.writeWord, State.writeByte_ram ha1]
  exact State.writeByte_ram ha' (loByte v)

/-- Settles O28: both addresses are in the window, and the second write, of the low byte, leaves the high byte. -/
theorem wordWriteThenReadReturnsIt : Obligations.WordWriteThenReadReturnsIt := by
  intro s a v hc hbase hlimit
  obtain ⟨-, -, htop⟩ := Config.ordered_of_wf hc
  have hnext : (a + 1).toNat = a.toNat + 1 := BitVec.toNat_add_of_lt (by simp; omega)
  have ha : region s.cfg a = .ram := (region_eq_ram_iff hc a).mpr ⟨hbase, by omega⟩
  have ha1 : region s.cfg (a + 1) = .ram := (region_eq_ram_iff hc (a + 1)).mpr (by omega)
  obtain ⟨s1, t, hwrite, ⟨hhi, -⟩, ⟨hlo, hother⟩⟩ := State.writeWord_stored ha ha1 v
  have hkept : t.readByte (a + 1) = .ok (hiByte v) := (hother (a + 1) (by simp)).trans hhi
  exact ⟨t, hwrite, wordOf_hiByte_loByte v ▸ State.readWord_ok hlo hkept⟩

end Sys2Proof.Machine
end

section
/-! PROOFS. `NOP` and the INVALID opcodes (41_nop_invalid.md R110, R111), on the fetch of an instruction whose bytes stand at PC
up to the end or up to the first unreadable one (40_engine.md R82, R96). -/

namespace Sys2Proof.Machine

open Sys2Proof.Slice0

/-! ### The bytes at PC -/

/-- The bytes `bs` stand at PC and the addresses after it, and can be read there. -/
def BytesAtPc (bs : List Byte) (s : State) : Prop :=
  ∀ k b, bs[k]? = some b → s.readByte (byteAddress s k) = .ok b

@[simp] theorem byteAddress_zero (s : State) : byteAddress s 0 = s.regs.pc :=
  BitVec.add_zero _

/-- The address `k` past the PC that a read byte leaves is `k + 1` past the PC before. -/
theorem add_one_add_ofNat (a : Word) (k : Nat) : a + 1 + BitVec.ofNat 16 k = a + BitVec.ofNat 16 (k + 1) := by
  rw [BitVec.add_assoc, Nat.add_comm k 1, BitVec.ofNat_add]
  rfl

@[simp] theorem byteAddress_passOperand (s : State) (k : Nat) : byteAddress s.passOperand k = byteAddress s (k + 1) :=
  add_one_add_ofNat s.regs.pc k

@[simp] theorem byteAddress_begin (s : State) (op : Byte) (k : Nat) : byteAddress (s.begin op) k = byteAddress s (k + 1) :=
  add_one_add_ofNat s.regs.pc k

theorem BytesAtPc.head {b : Byte} {bs : List Byte} {s : State} (h : BytesAtPc (b :: bs) s) : s.readByte s.regs.pc = .ok b := by
  simpa using h 0 b rfl

theorem BytesAtPc.tail_passOperand {b : Byte} {bs : List Byte} {s : State} (h : BytesAtPc (b :: bs) s) :
    BytesAtPc bs s.passOperand := fun k c hk => by
  simpa using h (k + 1) c hk

theorem BytesAtPc.tail_begin {b : Byte} {bs : List Byte} {s : State} (h : BytesAtPc (b :: bs) s) (op : Byte) :
    BytesAtPc bs (s.begin op) := fun k c hk => by
  simpa using h (k + 1) c hk

theorem bytesAtPc_singleton {b : Byte} {s : State} (h : s.readByte s.regs.pc = .ok b) : BytesAtPc [b] s := by
  intro k c hk
  obtain ⟨rfl, rfl⟩ : k = 0 ∧ b = c := by simpa [List.getElem?_singleton] using hk
  simpa using h

/-! ### The fetch of operand bytes -/

theorem fetchOperands_bytes {bs : List Byte} {s : State} (h : BytesAtPc bs s) : fetchOperands bs.length s = .bytes bs := by
  induction bs generalizing s with
  | nil => rfl
  | cons b bs ih => simp only [List.length_cons, fetchOperands, fetchByte, h.head, ih h.tail_passOperand]

/-- The fetch stops at the first byte that cannot be read, with the parameters and the record as they were (R165). -/
theorem fetchOperands_stopped {bs : List Byte} {n : Nat} {c : Cause} {s : State} (h : BytesAtPc bs s) (hn : bs.length < n)
    (hc : s.readByte (byteAddress s bs.length) = .error c) :
    ∃ now, fetchOperands n s = .stopped c now ∧ now.cfg = s.cfg ∧ now.fault = s.fault := by
  induction n generalizing bs s with
  | zero => exact absurd hn (Nat.not_lt_zero _)
  | succ n ih =>
    cases bs with
    | nil =>
      have hpc : s.readByte s.regs.pc = .error c := by simpa using hc
      exact ⟨s, by simp only [fetchOperands, fetchByte, hpc], rfl, rfl⟩
    | cons b bs =>
      obtain ⟨now, hstop, hcfg, hfault⟩ := ih h.tail_passOperand (Nat.lt_of_succ_lt_succ hn) (by simpa using hc)
      exact ⟨now, by simp only [fetchOperands, fetchByte, h.head, hstop], hcfg, hfault⟩

/-! ### The step on the bytes of an instruction -/

theorem fetchInstr_of_unreadable_opcode {s : State} (hr : readable s.cfg s.regs.pc = false) :
    fetchInstr s = .raised (raise (.unimplemented (.unmappedRead s.regs.pc)) none s s.clearLatches) := by
  have hread := (State.readByte_error_iff s s.regs.pc _).mpr ⟨hr, rfl⟩
  simp only [fetchInstr, hread]

/-- Every mode but `AM_HL_SPR` fetches all the operand bytes of its encoding. -/
theorem fetchCount_eq_operandBytes {m : Mode} (h : m ≠ .hlSpr) : fetchCount m = m.operandBytes := by
  cases m with
  | hlSpr => exact absurd rfl h
  | _ => rfl

theorem getD_append_pair_default {α : Type} (l : List α) (d : α) (k : Nat) : (l ++ [d, d]).getD k d = l.getD k d := by
  obtain hk | hk := Nat.lt_or_ge k l.length
  · exact List.getD_append l [d, d] d k hk
  · rw [List.getD_append_right l [d, d] d k hk, List.getD_eq_default l d hk]
    exact List.getElem?_getD_replicate_default_eq d 2 _

section
variable {i : Instr} (henc : Laws.Encoding.Statement i) (hwf : i.wf = true) (hmode : (itab i.opcode).mode ≠ .hlSpr)
include henc hwf

theorem assemble_operands : assemble i.opcode (i.operands.getD 0 0) (i.operands.getD 1 0) = i := by
  obtain ⟨-, -, hrow⟩ := henc hwf
  simpa only [getD_append_pair_default] using hrow 0 0

include hmode

theorem fetchCount_eq_length_operands : fetchCount (itab i.opcode).mode = i.operands.length := by
  obtain ⟨hlength, -, -⟩ := henc hwf
  rw [fetchCount_eq_operandBytes hmode, hlength]

/-- The bytes of an instruction at PC are fetched as that instruction. -/
theorem fetchInstr_of_bytesAtPc {s : State} (h : BytesAtPc (encode i) s) : fetchInstr s = .instr i := by
  have hops := fetchOperands_bytes (h.tail_begin i.opcode)
  simp only [fetchInstr, h.head, fetchCount_eq_length_operands henc hwf hmode, hops, assemble_operands henc hwf]

/-- An unreadable operand byte stops the fetch with `UnmappedRead`, the opcode in hand. -/
theorem fetchInstr_of_unreadable_operand {s : State} {k : Nat} (h : BytesAtPc ((encode i).take (k + 1)) s)
    (hk : k < i.operands.length) (hr : readable s.cfg (byteAddress s (k + 1)) = false) :
    ∃ t, fetchInstr s = .raised t ∧ Raised (.unimplemented (.unmappedRead (byteAddress s (k + 1)))) (some i.opcode) s t := by
  have hlength : (i.operands.take k).length = k := List.length_take_of_le hk.le
  have hread := (State.readByte_error_iff s _ _).mpr ⟨hr, rfl⟩
  obtain ⟨now, hstop, hcfg, hfault⟩ :=
    fetchOperands_stopped (n := i.operands.length) (h.tail_begin i.opcode) (hlength.symm ▸ hk) (by simpa [hlength] using hread)
  refine ⟨_, ?_, raise_raised _ _ s now hcfg hfault⟩
  simp only [fetchInstr, h.head, fetchCount_eq_length_operands henc hwf hmode, hstop]

theorem step_eq_exec_of_bytesAtPc {s : State} (hs : Running s) (h : BytesAtPc (encode i) s) : step s = exec i s := by
  rw [step_running hs.1 hs.2, fetchInstr_of_bytesAtPc henc hwf hmode h]

/-- Every well-formed instruction whose operand bytes are all fetched has the faults of fetch, and runs where there are none. -/
theorem faultsOfFetchOnly (s : State) : FaultsOfFetchOnly i s := by
  intro hs
  refine ⟨step_eq_exec_of_bytesAtPc henc hwf hmode hs, fun k hk hbefore hr => ?_⟩
  rw [step_running hs.1 hs.2]
  cases k with
  | zero =>
    rw [byteAddress_zero] at hr ⊢
    exact ⟨_, by rw [fetchInstr_of_unreadable_opcode hr], raise_raised _ none s s.clearLatches rfl rfl⟩
  | succ k =>
    have hbytes : BytesAtPc ((encode i).take (k + 1)) s := fun j b hj => by
      obtain ⟨hlt, hb⟩ : j < k + 1 ∧ (encode i)[j]? = some b := by
        simpa only [List.getElem?_take, Option.ite_none_right_eq_some] using hj
      exact hbefore j b hlt hb
    obtain ⟨t, hfetch, hraised⟩ :=
      fetchInstr_of_unreadable_operand henc hwf hmode hbytes (Nat.lt_of_succ_lt_succ hk) hr
    exact ⟨t, by rw [hfetch], hraised⟩

end

/-! ### INVALID -/

theorem itab_mode_ne_hlSpr_of_invalid {op : Byte} (h : isInvalidOpcode op = true) : (itab op).mode ≠ .hlSpr := by
  simp [itab_of_invalid h, Descriptor.invalid]

/-- No trace record is emitted where the descriptor of the opcode is INVALID (60_exceptions.md R176). -/
theorem traceRecord_of_invalid {s : State} {op : Byte} (h : isInvalidOpcode op = true) (hop : s.readByte s.regs.pc = .ok op) :
    traceRecord s = none := by
  simp [traceRecord, hop, itab_of_invalid h, Descriptor.invalid]

/-- Settles O7: the INVALID descriptor has no operand byte, so the byte at PC alone decides the step. -/
theorem invalidOpcodeRaises : Obligations.InvalidOpcodeRaises := by
  intro s op
  have hraised : Raised .unknownOpcode (some op) s (raise .unknownOpcode (some op) s s.clearLatches) :=
    raise_raised _ _ s s.clearLatches rfl rfl
  refine ⟨⟨_, exec_invalid op s, hraised⟩, fun hs hinv hop => ⟨traceRecord_of_invalid hinv hop, ?_⟩⟩
  have hstep : step s = exec (.invalid op) s :=
    step_eq_exec_of_bytesAtPc (Laws.Encoding.invalid op) hinv (itab_mode_ne_hlSpr_of_invalid hinv) hs (bytesAtPc_singleton hop)
  exact ⟨_, hstep.trans (exec_invalid op s), hraised, rfl⟩

/-! ### NOP -/

/-- Settles O6: `exec` is the start of the step alone, and its faults are those of every fetch. -/
theorem nopOnlyAdvancesPc : Obligations.NopOnlyAdvancesPc := by
  refine ⟨rfl, fun s => ⟨s.begin 0x00, exec_nop s, s.begin_regs 0x00, State.sameBytes_of rfl rfl, ⟨rfl, rfl, rfl⟩,
    s.begin_cycles 0x00, ?_⟩⟩
  exact faultsOfFetchOnly Laws.Encoding.nop rfl (by decide) s

end Sys2Proof.Machine
end

section
/-! PROOFS. `DEC r` and `XOR A,r` (42_alu_dec_xor.md R120, R121): both leave a new value in one operand register and new flags,
with PC past the one byte and nothing else changed; in the engine a descriptor on a 16-bit register has no handler (R98). -/

namespace Sys2Proof.Machine

open Sys2Proof.Slice0

/-! ### The fetch of the one-byte forms -/

theorem encoding_decOf (r : GReg) : Laws.Encoding.Statement (Instr.decOf r) := by
  cases r with
  | b => exact Laws.Encoding.decB
  | c => exact Laws.Encoding.decC
  | d => exact Laws.Encoding.decD
  | e => exact Laws.Encoding.decE
  | h => exact Laws.Encoding.decH
  | l => exact Laws.Encoding.decL
  | a => exact Laws.Encoding.decA

theorem encoding_xorOf (r : GReg) : Laws.Encoding.Statement (Instr.xorOf r) := by
  cases r with
  | b => exact Laws.Encoding.xorB
  | c => exact Laws.Encoding.xorC
  | d => exact Laws.Encoding.xorD
  | e => exact Laws.Encoding.xorE
  | h => exact Laws.Encoding.xorH
  | l => exact Laws.Encoding.xorL
  | a => exact Laws.Encoding.xorA

theorem wf_decOf (r : GReg) : (Instr.decOf r).wf = true := by cases r <;> rfl

theorem wf_xorOf (r : GReg) : (Instr.xorOf r).wf = true := by cases r <;> rfl

theorem itab_mode_decOf (r : GReg) : (itab (Instr.decOf r).opcode).mode = .r := by cases r <;> rfl

theorem itab_mode_xorOf (r : GReg) : (itab (Instr.xorOf r).opcode).mode = .r := by cases r <;> rfl

theorem faultsOfFetchOnly_decOf (r : GReg) (s : State) : FaultsOfFetchOnly (Instr.decOf r) s :=
  faultsOfFetchOnly (encoding_decOf r) (wf_decOf r) (by simp [itab_mode_decOf]) s

theorem faultsOfFetchOnly_xorOf (r : GReg) (s : State) : FaultsOfFetchOnly (Instr.xorOf r) s :=
  faultsOfFetchOnly (encoding_xorOf r) (wf_xorOf r) (by simp [itab_mode_xorOf]) s

theorem encode_decOf (r : GReg) : encode (Instr.decOf r) = [BitVec.ofNat 8 (8 * regCode r + 5)] := by
  cases r <;> rfl

theorem encode_xorOf (r : GReg) : encode (Instr.xorOf r) = [BitVec.ofNat 8 (0xA8 + regCode r)] := by
  cases r <;> rfl

/-! ### What both instructions leave -/

/-- The state after an ALU step with opcode `op` that read `src` and leaves `v` in `dst` and `f` in the flag register. -/
def aluResult (op : Byte) (src dst : GReg) (v f : Byte) (s : State) : State :=
  (resolveReg src (s.begin op)).withRegs (((s.regs.put dst v).setF f).setPc (s.regs.pc + 1))

theorem decReg_eq_aluResult (op : Byte) (r : GReg) (s : State) :
    decReg op r s = aluResult op r r (s.regs.get r - 1) (decFlags (s.regs.get r) s.regs.f) s := by
  simp [decReg, resolveReg, aluResult]

theorem xorReg_eq_aluResult (op : Byte) (r : GReg) (s : State) :
    xorReg op r s =
      aluResult op r .a (s.regs.a ^^^ s.regs.get r) (xorFlags (s.regs.a ^^^ s.regs.get r) s.regs.f) s := by
  simp [xorReg, resolveReg, aluResult]

section
variable (op : Byte) (src dst : GReg) (v f : Byte) (s : State)

theorem aluResult_get_self : (aluResult op src dst v f s).regs.get dst = v := by
  simp [aluResult, RegFile.get_put_self]

theorem aluResult_f : (aluResult op src dst v f s).regs.f = f := rfl

/-- What R120 and R121 both say under "Other state": only the destination, `F` and PC change. -/
theorem aluResult_frame :
    SameRegsBut (· = dst) s (aluResult op src dst v f s) ∧ (aluResult op src dst v f s).regs.pc = s.regs.pc + 1 ∧
    SameBytes s (aluResult op src dst v f s) ∧ SameControl s (aluResult op src dst v f s) ∧
    (aluResult op src dst v f s).cycles = s.cycles := by
  have hregs : SameRegsBut (· = dst) s (aluResult op src dst v f s) := by
    refine ⟨fun q hq => ?_, by simp [aluResult]⟩
    simp [aluResult, RegFile.get_put_other _ _ _ _ hq]
  exact ⟨hregs, rfl, State.sameBytes_of rfl rfl, ⟨rfl, rfl, rfl⟩, rfl⟩

end

/-! ### Descriptors without a handler -/

theorem isReg8_of_isReg16 {r : RegName} (h : isReg16 r = true) : isReg8 r = false := by
  cases r with
  | af | bc | de | hl | sp | pc => rfl
  | _ => cases h

theorem enginePhaseExecute_dec {d : Descriptor} (hk : d.kind = .dec) (s : State) : enginePhaseExecute d s = engineDec d s := by
  simp only [enginePhaseExecute, hk]

theorem enginePhaseExecute_xor {d : Descriptor} (hk : d.kind = .xor) (s : State) : enginePhaseExecute d s = engineXor d s := by
  simp only [enginePhaseExecute, hk]

theorem engineDec_unhandled {d : Descriptor} (h : ¬ (d.mode = .r ∧ isReg8 d.reg1 = true)) (s : State) :
    engineDec d s = Phase.fail (.unimplementedCombination .dec) s :=
  if_neg h

theorem engineXor_unhandled {d : Descriptor} (h : ¬ (d.mode = .r ∧ isReg8 d.reg1 = true)) (s : State) :
    engineXor d s = Phase.fail (.unimplementedCombination .xor) s :=
  if_neg h

/-! ### DEC -/

/-- Subtracting one modulo 2^8 is adding 255. -/
theorem toNat_sub_one (v : Byte) : (v - 1).toNat = (v.toNat + 255) % 256 := by
  simp [BitVec.toNat_sub, Nat.add_comm]

/-- Settles O8: the value and the flags of `decFlags_spec` in the frame of an ALU step; a 16-bit name is no 8-bit one. -/
theorem decResultFlagsAndFrame : Obligations.DecResultFlagsAndFrame := by
  constructor
  · intro r s
    obtain ⟨hz, hn, hh, hc, hlow⟩ := decFlags_spec (s.regs.get r) s.regs.f
    obtain ⟨hregs, hpc, hbytes, hcontrol, hcycles⟩ :=
      aluResult_frame (Instr.decOf r).opcode r r (s.regs.get r - 1) (decFlags (s.regs.get r) s.regs.f) s
    refine ⟨encode_decOf r, _, (exec_decOf r s).trans (congrArg _ (decReg_eq_aluResult _ r s)), ?_⟩
    rw [aluResult_get_self, aluResult_f]
    exact ⟨toNat_sub_one _, hz, hn, hh, hc, hlow, hregs, hpc, hbytes, hcontrol, hcycles,
      faultsOfFetchOnly_decOf r s⟩
  · intro d s hkind _ hreg
    rw [enginePhaseExecute_dec hkind, engineDec_unhandled (by simp [isReg8_of_isReg16 hreg])]
    rfl

/-! ### XOR -/

/-- Settles O9: the value and the flags of `xorFlags_spec` in the frame of an ALU step, `A` its one changed operand register. -/
theorem xorResultFlagsAndFrame : Obligations.XorResultFlagsAndFrame := by
  constructor
  · intro r s
    obtain ⟨hz, hn, hh, hc, hlow⟩ := xorFlags_spec (s.regs.a ^^^ s.regs.get r) s.regs.f
    obtain ⟨hregs, hpc, hbytes, hcontrol, hcycles⟩ :=
      aluResult_frame (Instr.xorOf r).opcode r .a (s.regs.a ^^^ s.regs.get r)
        (xorFlags (s.regs.a ^^^ s.regs.get r) s.regs.f) s
    refine ⟨encode_xorOf r, _, (exec_xorOf r s).trans (congrArg _ (xorReg_eq_aluResult _ r s)), ?_⟩
    exact ⟨fun _ => BitVec.getLsbD_xor, hz, hn, hh, hc, hlow, hregs, hpc, hbytes, hcontrol, hcycles,
      faultsOfFetchOnly_xorOf r s⟩
  · intro d s hkind _ hreg
    rw [enginePhaseExecute_xor hkind, engineXor_unhandled (by simp [isReg8_of_isReg16 hreg])]
    rfl

end Sys2Proof.Machine
end

section
/-! PROOFS. The LD family (43_ld.md R130 to R139). A load leaves a new value in one register or pair; a store is one lemma about
`storeFetched`; the form with no meaning raises before its operand byte is read. Each form's fetch comes from its table row. -/

namespace Sys2Proof.Machine

open Sys2Proof.Slice0

/-! ### The fetch of an instruction with a table row -/

/-- The Instruction Table has a row of mode `m` for the opcode of `i`, and gives `i` back from the operand bytes (R63, R66). -/
def HasRow (i : Instr) (m : Mode) : Prop :=
  ∃ d f, tableRow i.opcode = some (d, f) ∧ d.mode = m ∧
    ∀ x y, f ((i.operands ++ [x, y]).getD 0 0) ((i.operands ++ [x, y]).getD 1 0) = i

theorem operandBytes_le_two (m : Mode) : m.operandBytes ≤ 2 := by cases m <;> decide

theorem HasRow.wf_and_length {i : Instr} {m : Mode} (h : HasRow i m) :
    i.wf = true ∧ i.operands.length = m.operandBytes := by
  obtain ⟨d, f, hrow, rfl, hi⟩ := h
  have hrowSpec := tableRow_some hrow ((i.operands ++ [0, 0]).getD 0 0) ((i.operands ++ [0, 0]).getD 1 0)
  simp only [hi] at hrowSpec
  obtain ⟨-, hops, hwf, -⟩ := hrowSpec
  exact ⟨hwf, by rw [hops, List.length_take_of_le (operandBytes_le_two d.mode)]⟩

theorem HasRow.itab_mode {i : Instr} {m : Mode} (h : HasRow i m) : (itab i.opcode).mode = m := by
  obtain ⟨d, f, hrow, rfl, -⟩ := h
  rw [itab_of_row hrow]

theorem HasRow.encoding {i : Instr} {m : Mode} (h : HasRow i m) : Laws.Encoding.Statement i := by
  obtain ⟨hwf, hlength⟩ := h.wf_and_length
  have hmode := h.itab_mode
  obtain ⟨d, f, hrow, -, hi⟩ := h
  obtain ⟨-, -, -, hkind⟩ := tableRow_some hrow 0 0
  refine Laws.Encoding.populated (hmode ▸ hlength) (decide_eq_false (itab_of_row hrow ▸ hkind)) ?_
    fun x y => (assemble_of_row hrow _ _).trans (hi x y)
  rintro op rfl
  have hnone : tableRow op = none := (tableRow_none_iff op).2 hwf
  exact Option.some_ne_none _ (hrow.symm.trans hnone)

theorem HasRow.faultsOfFetchOnly {i : Instr} {m : Mode} (h : HasRow i m) (hm : m ≠ .hlSpr) (s : State) :
    FaultsOfFetchOnly i s :=
  Machine.faultsOfFetchOnly h.encoding h.wf_and_length.1 (h.itab_mode ▸ hm) s

theorem hasRow_ldOf (dst src : GReg) : HasRow (Instr.ldOf dst src) .rR := by
  cases dst <;> cases src <;> exact ⟨_, _, rfl, rfl, fun _ _ => rfl⟩

theorem hasRow_ldImmOf (dst : GReg) (d8 : Byte) : HasRow (Instr.ldImmOf dst d8) .rD8 := by
  cases dst <;> exact ⟨_, _, rfl, rfl, fun _ _ => rfl⟩

theorem hasRow_ldPairOf (rr : PairReg) (d16 : Word) : HasRow (Instr.ldPairOf rr d16) .rD16 := by
  have hword := wordOf_hiByte_loByte d16
  cases rr with
  | bc => exact ⟨_, _, rfl, rfl, fun _ _ => congrArg Instr.ldBcD16 hword⟩
  | de => exact ⟨_, _, rfl, rfl, fun _ _ => congrArg Instr.ldDeD16 hword⟩
  | hl => exact ⟨_, _, rfl, rfl, fun _ _ => congrArg Instr.ldHlD16 hword⟩
  | sp => exact ⟨_, _, rfl, rfl, fun _ _ => congrArg Instr.ldSpD16 hword⟩

theorem hasRow_ldIndHlOf (r : GReg) : HasRow (Instr.ldIndHlOf r) .mrR := by
  cases r <;> exact ⟨_, _, rfl, rfl, fun _ _ => rfl⟩

theorem hasRow_ldIndBcA : HasRow .ldIndBcA .mrR := ⟨_, _, rfl, rfl, fun _ _ => rfl⟩

theorem hasRow_ldIndDeA : HasRow .ldIndDeA .mrR := ⟨_, _, rfl, rfl, fun _ _ => rfl⟩

theorem hasRow_ldHliA : HasRow .ldHliA .hliR := ⟨_, _, rfl, rfl, fun _ _ => rfl⟩

theorem hasRow_ldHldA : HasRow .ldHldA .hldR := ⟨_, _, rfl, rfl, fun _ _ => rfl⟩

/-! ### The bytes of each form -/

theorem encode_ldOf (dst src : GReg) :
    encode (Instr.ldOf dst src) = [BitVec.ofNat 8 (0x40 + 8 * regCode dst + regCode src)] := by
  cases dst <;> cases src <;> rfl

theorem encode_ldImmOf (dst : GReg) (d8 : Byte) :
    encode (Instr.ldImmOf dst d8) = [BitVec.ofNat 8 (8 * regCode dst + 6), d8] := by
  cases dst <;> rfl

theorem encode_ldPairOf (rr : PairReg) (d16 : Word) :
    encode (Instr.ldPairOf rr d16) = [BitVec.ofNat 8 (16 * pairCode rr + 1), loByte d16, hiByte d16] := by
  cases rr <;> rfl

theorem opcode_ldIndHlOf (r : GReg) : (Instr.ldIndHlOf r).opcode = BitVec.ofNat 8 (0x70 + regCode r) := by
  cases r <;> rfl

theorem encode_ldIndHlOf (r : GReg) : encode (Instr.ldIndHlOf r) = [BitVec.ofNat 8 (0x70 + regCode r)] := by
  rw [encode, operands_ldIndHlOf, opcode_ldIndHlOf]

/-! ### Loads -/

@[simp] theorem RegFile.putPair_setPc (x : RegFile) (rr : PairReg) (v p : Word) :
    (x.setPc p).putPair rr v = (x.putPair rr v).setPc p := by
  cases rr <;> rfl

section
variable (op : Byte) (dst src : GReg) (rr : PairReg) (d8 : Byte) (d16 : Word) (s : State)

theorem loadReg_regs : (loadReg op dst src s).regs = (s.regs.put dst (s.regs.get src)).setPc (s.regs.pc + 1) := by
  simp [loadReg, resolveRegReg]

theorem loadImm8_regs : (loadImm8 op dst d8 s).regs = (s.regs.put dst d8).setPc (s.regs.pc + 2) := by
  simp [loadImm8, resolveImm8, BitVec.add_assoc]

theorem loadImm16_regs : (loadImm16 op rr d16 s).regs = (s.regs.putPair rr d16).setPc (s.regs.pc + 3) := by
  simp [loadImm16, resolveImm16, BitVec.add_assoc]

/-! Beside registers and latches a load changes the tally alone, by its operand bytes (R195). -/

theorem loadReg_frame : SameBytes s (loadReg op dst src s) ∧ SameControl s (loadReg op dst src s) ∧
    (loadReg op dst src s).cycles = s.cycles :=
  ⟨State.sameBytes_of rfl rfl, ⟨rfl, rfl, rfl⟩, rfl⟩

theorem loadImm8_frame : SameBytes s (loadImm8 op dst d8 s) ∧ SameControl s (loadImm8 op dst d8 s) ∧
    (loadImm8 op dst d8 s).cycles = tally 1 s :=
  ⟨State.sameBytes_of rfl rfl, ⟨rfl, rfl, rfl⟩, rfl⟩

theorem loadImm16_frame : SameBytes s (loadImm16 op rr d16 s) ∧ SameControl s (loadImm16 op rr d16 s) ∧
    (loadImm16 op rr d16 s).cycles = tally 2 s := by
  refine ⟨State.sameBytes_of ?_ ?_, ⟨?_, ?_, ?_⟩, ?_⟩ <;> simp [loadImm16, resolveImm16, tally, tally_two]

end

/-- What one register write and a new PC leave of the register file (R131, R132). -/
theorem regs_of_put {s t : State} {dst : GReg} {v : Byte} {p : Word} (h : t.regs = (s.regs.put dst v).setPc p) :
    t.regs.get dst = v ∧ SameRegsBut (· = dst) s t ∧ t.regs.f = s.regs.f ∧ t.regs.pc = p := by
  have hother : SameRegsBut (· = dst) s t := by
    refine ⟨fun q hq => ?_, by simp [h]⟩
    rw [h, RegFile.get_setPc, RegFile.get_put_other _ _ _ _ hq]
  exact ⟨by rw [h, RegFile.get_setPc, RegFile.get_put_self], hother, by simp [h], by simp [h]⟩

/-- What one pair write and a new PC leave of the register file (R133). -/
theorem regs_of_putPair {s t : State} {rr : PairReg} {v p : Word} (h : t.regs = (s.regs.putPair rr v).setPc p) :
    t.regs.getPair rr = v ∧ (∀ q, q ≠ rr → t.regs.getPair q = s.regs.getPair q) ∧
    t.regs.a = s.regs.a ∧ t.regs.f = s.regs.f ∧ t.regs.pc = p := by
  have hother : ∀ q, q ≠ rr → t.regs.getPair q = s.regs.getPair q := fun q hq => by
    rw [h, RegFile.getPair_setPc, RegFile.getPair_putPair_other _ _ _ _ hq]
  exact ⟨by simp [h], hother, by simp [h], by simp [h], by simp [h]⟩

/-- Settles O11: the register file of `loadReg` is one `put` and the advance of PC. -/
theorem loadRegisterFromRegister : Obligations.LoadRegisterFromRegister := by
  intro dst src s
  obtain ⟨hdst, hother, hf, hpc⟩ := regs_of_put (loadReg_regs (Instr.ldOf dst src).opcode dst src s)
  obtain ⟨hbytes, hcontrol, hcycles⟩ := loadReg_frame (Instr.ldOf dst src).opcode dst src s
  exact ⟨encode_ldOf dst src, _, exec_ldOf dst src s, hdst, hother, hf, hpc, hbytes, hcontrol, hcycles,
    (hasRow_ldOf dst src).faultsOfFetchOnly (by decide) s⟩

/-- Settles O12: as `LD r,r'`, with the operand byte as the value and one byte more passed. -/
theorem loadRegisterImmediate : Obligations.LoadRegisterImmediate := by
  intro dst d8 s
  obtain ⟨hdst, hother, hf, hpc⟩ := regs_of_put (loadImm8_regs (Instr.ldImmOf dst d8).opcode dst d8 s)
  obtain ⟨hbytes, hcontrol, hcycles⟩ := loadImm8_frame (Instr.ldImmOf dst d8).opcode dst d8 s
  exact ⟨encode_ldImmOf dst d8, _, exec_ldImmOf dst d8 s, hdst, hother, hf, hpc, hbytes, hcontrol, hcycles,
    (hasRow_ldImmOf dst d8).faultsOfFetchOnly (by decide) s⟩

/-- Settles O13: the register file of `loadImm16` is one `putPair`, which keeps `A`, `F` and the other pairs. -/
theorem loadPairImmediate : Obligations.LoadPairImmediate := by
  intro rr d16 s
  obtain ⟨hpair, hother, ha, hf, hpc⟩ := regs_of_putPair (loadImm16_regs (Instr.ldPairOf rr d16).opcode rr d16 s)
  obtain ⟨hbytes, hcontrol, hcycles⟩ := loadImm16_frame (Instr.ldPairOf rr d16).opcode rr d16 s
  exact ⟨encode_ldPairOf rr d16, _, exec_ldPairOf rr d16 s, hpair, hother, ha, hf, hpc, hbytes, hcontrol, hcycles,
    (hasRow_ldPairOf rr d16).faultsOfFetchOnly (by decide) s⟩

/-! ### Stores -/

/-- Whether a state is the result of a store depends on its parameters and memory only. -/
theorem stored_congr {a : Word} {v : Byte} {s t t' : State} (h : Stored a v s t) (hc : t'.cfg = t.cfg) (hm : t'.mem = t.mem) :
    Stored a v s t' := by
  obtain ⟨hself, hother⟩ := h
  have hread := State.readByte_congr hc hm
  exact ⟨(hread a).trans hself, fun x hx => (hread x).trans (hother x hx)⟩

/-- The memory arm of `LD` as a `StoreResult`: `now` is the state with the operand resolved, its latched address and datum are
what is stored, and its register file is the one a completed store leaves. -/
theorem storeResult_of_storeFetched {i : Instr} {op v : Byte} {a : Word} {x : RegFile} {s now : State}
    (hencode : encode i = [op]) (hfetch : FaultsOfFetchOnly i s) (hexec : exec i s = .next (storeFetched op s now))
    (ha : now.memDest = a) (hv : loByte now.fetched = v) (hx : now.regs = x)
    (hcontrol : SameControl s now) (hmem : now.mem = s.mem) (hcycles : now.cycles = s.cycles) : StoreResult i op a v x s := by
  subst ha hv
  obtain ⟨hcfg, hhalted, hfault⟩ := hcontrol
  obtain ⟨hram, hstored⟩ | ⟨hout, hraise⟩ := storeFetched_cases op s now
  · rw [hcfg] at hram
    refine ⟨hencode, hfetch, fun _ => ?_, fun hout => absurd hram hout⟩
    exact ⟨_, hexec.trans (congrArg _ hstored), hx, stored_congr (stored_insert hram _) hcfg (by rw [hmem]),
      ⟨hcfg, hhalted, hfault⟩, hcycles⟩
  · rw [hcfg] at hout
    refine ⟨hencode, hfetch, fun hram => absurd hram hout, fun _ => ?_⟩
    exact ⟨_, hexec.trans (congrArg _ hraise), raise_raised _ _ s now hcfg hfault⟩

/-- A store through an unmodified pointer (R134 to R136). -/
theorem storeResult_of_storeReg {i : Instr} {op : Byte} {ptr : PairReg} {src : GReg} {s : State} (hrow : HasRow i .mrR)
    (hencode : encode i = [op]) (hexec : exec i s = .next (storeReg op ptr src s)) :
    StoreResult i op (s.regs.getPair ptr) (s.regs.get src) { s.regs with pc := s.regs.pc + 1 } s :=
  storeResult_of_storeFetched hencode (hrow.faultsOfFetchOnly (by decide) s) hexec (by simp [resolveMemReg])
    (by simp [resolveMemReg]) rfl ⟨rfl, rfl, rfl⟩ rfl rfl

/-- Settles O14: the pointer is HL, for every source register. -/
theorem storeThroughHl : Obligations.StoreThroughHl := by
  intro r s
  exact storeResult_of_storeReg (hasRow_ldIndHlOf r) (encode_ldIndHlOf r) (opcode_ldIndHlOf r ▸ exec_ldIndHlOf r s)

/-- Settles O15: `wordOf` of the two halves is what the pair reads as. -/
theorem storeThroughBcAndDe : Obligations.StoreThroughBcAndDe := by
  intro s
  exact ⟨storeResult_of_storeReg hasRow_ldIndBcA rfl (exec_ldIndBcA s),
    storeResult_of_storeReg hasRow_ldIndDeA rfl (exec_ldIndDeA s)⟩

/-- Settles O16: the latched address is the HL from before the step, whichever way HL then goes. -/
theorem storeAndStepHl : Obligations.StoreAndStepHl := by
  intro s
  constructor
  · exact storeResult_of_storeFetched rfl (hasRow_ldHliA.faultsOfFetchOnly (by decide) s) (exec_ldHliA s) rfl
      (loByte_zext16 s.regs.a) rfl ⟨rfl, rfl, rfl⟩ rfl rfl
  · exact storeResult_of_storeFetched rfl (hasRow_ldHldA.faultsOfFetchOnly (by decide) s) (exec_ldHldA s) rfl
      (loByte_zext16 s.regs.a) rfl ⟨rfl, rfl, rfl⟩ rfl rfl

/-! ### LD HL,SP+e8 -/

/-- A running core emits a trace record for every opcode byte whose kind is not INVALID (60_exceptions.md R176). -/
theorem traceRecord_of_populated {s : State} {op : Byte} (hs : Running s) (hop : s.readByte s.regs.pc = .ok op)
    (hkind : (itab op).kind ≠ .invalid) : traceRecord s = some ⟨s.regs.pc, op, (itab op).mnemonic⟩ := by
  obtain ⟨hrun, hlegal⟩ := hs
  simp [traceRecord, hrun, hlegal, hop, hkind]

/-- An opcode whose mode fetches no operand byte is fetched whatever follows it (R95). -/
theorem step_of_fetchCount_zero {s : State} {op : Byte} (hs : Running s) (hop : s.readByte s.regs.pc = .ok op)
    (hcount : fetchCount (itab op).mode = 0) : step s = exec (assemble op 0 0) s := by
  have hfetch : fetchInstr s = .instr (assemble op 0 0) := by
    simp [fetchInstr, hop, hcount, fetchOperands]
  rw [step_running hs.1 hs.2, hfetch]

/-- Settles O17: the raise comes before the operand byte is fetched, so the opcode byte alone decides the step. -/
theorem loadHlSpOffsetRaises : Obligations.LoadHlSpOffsetRaises := by
  have hraised : ∀ s : State, Raised (.unimplemented (.unimplementedMode .hlSpr)) (some 0xF8) s
      (raise (.unimplemented (.unimplementedMode .hlSpr)) (some 0xF8) s (s.begin 0xF8)) :=
    fun s => raise_raised _ _ s (s.begin 0xF8) rfl rfl
  refine ⟨fun _ => rfl, fun e8 s => ⟨_, exec_ldHlSpE8 e8 s, hraised s⟩, fun s hs hop => ?_⟩
  exact ⟨traceRecord_of_populated hs hop (by decide), _, step_of_fetchCount_zero hs hop rfl, hraised s⟩

/-! ### The execute rule -/

theorem Phase.andThen_ok {α : Type} {x : Except Cause α} {v : α} (h : x = .ok v) (s : State) (k : α → Phase) :
    Phase.andThen x s k = k v := by
  rw [h, Phase.andThen]

theorem Phase.andThen_error {α : Type} {x : Except Cause α} {c : Cause} (h : x = .error c) (s : State) (k : α → Phase) :
    Phase.andThen x s k = .raised c (some s.curOpcode) s := by
  rw [h, Phase.andThen]

theorem enginePhaseExecute_ld {d : Descriptor} (hk : d.kind = .ld) (s : State) : enginePhaseExecute d s = engineLd d s := by
  simp only [enginePhaseExecute, hk]

theorem engineLd_hlSpr {d : Descriptor} (hm : d.mode = .hlSpr) (s : State) :
    engineLd d s = .raised (.unimplemented (.unimplementedMode .hlSpr)) (some s.curOpcode) s := by
  simp only [engineLd, hm, Phase.fail]

/-- The six modes R98 lists for `LD` share one handler. -/
theorem engineLd_handled {d : Descriptor}
    (hm : d.mode = .rR ∨ d.mode = .rD8 ∨ d.mode = .rD16 ∨ d.mode = .mrR ∨ d.mode = .hliR ∨ d.mode = .hldR) (s : State) :
    engineLd d s = if s.destIsMem then engineStore d s else engineLoad d s := by
  obtain hm | hm | hm | hm | hm | hm := hm <;> simp only [engineLd, hm]

theorem engineStore_word {d : Descriptor} (h : isReg16 d.reg2 = true) (s : State) :
    engineStore d s = Phase.andThen (s.writeWord s.memDest s.fetched) s .done := by
  simp only [engineStore, h, if_true]

theorem engineStore_byte {d : Descriptor} (h : isReg16 d.reg2 = false) (s : State) :
    engineStore d s = Phase.andThen (s.writeByte s.memDest (s.fetched.setWidth 8)) s .done := by
  simp [engineStore, h, loByte_eq_setWidth]

/-- Settles O56: in each arm execute is `Phase.andThen` of one write, and raises what that write raises. -/
theorem loadExecuteRule : Obligations.LoadExecuteRule := by
  intro d s hkind
  rw [enginePhaseExecute_ld hkind]
  refine ⟨fun hm => engineLd_hlSpr hm s, fun hm => ?_⟩
  rw [engineLd_handled hm]
  refine ⟨fun r hr => ?_, fun hreg => ?_⟩
  · have hstore : (if s.destIsMem then engineStore d s else engineLoad d s) = Phase.andThen r s .done := by
      obtain ⟨hdest, h16, rfl⟩ | ⟨hdest, h8, rfl⟩ := hr
      · rw [if_pos hdest, engineStore_word h16]
      · rw [if_pos hdest, engineStore_byte h8]
    rw [hstore]
    exact ⟨fun t ht => Phase.andThen_ok ht s _, fun c hc => Phase.andThen_error hc s _⟩
  · rw [if_neg (by simp [hreg])]
    exact ⟨fun x hx => Phase.andThen_ok hx s _, fun c hc => Phase.andThen_error hc s _⟩

end Sys2Proof.Machine
end

section
/-! PROOFS. Control transfer (44_jp_jr.md R150 to R152): a jump sets PC and leaves every other register, memory and the flags as
they were; in the engine a `JP`-kind descriptor with any other mode and condition has no handler. -/

namespace Sys2Proof.Machine

open Sys2Proof.Slice0

/-! ### The relative jump -/

section
variable (op : Byte) (cc : Cond) (e8 : Byte) (s : State)

/-- Resolution leaves PC past the whole instruction: the base of the displacement (R151). -/
theorem resolveRel8_begin_regs : (resolveRel8 e8 (s.begin op)).regs = s.regs.setPc (s.regs.pc + 2) := by
  simp [resolveRel8, BitVec.add_assoc]

/-- Taken or not, a relative jump writes PC alone. -/
theorem jumpRelative_regs : (jumpRelative op cc e8 s).regs =
    s.regs.setPc (if condHolds cc s.regs.f then s.regs.pc + 2 + sext16 e8 else s.regs.pc + 2) := by
  have hlow : loByte (resolveRel8 e8 (s.begin op)).fetched = e8 := loByte_zext16 e8
  simp only [jumpRelative, hlow, resolveRel8_begin_regs, RegFile.setPc_f, RegFile.setPc_pc]
  split <;> simp only [State.jumpTo_regs, resolveRel8_begin_regs, RegFile.setPc_setPc]

theorem jumpRelative_frame : SameBytes s (jumpRelative op cc e8 s) ∧ SameControl s (jumpRelative op cc e8 s) ∧
    (jumpRelative op cc e8 s).cycles = tally 1 s := by
  unfold jumpRelative
  dsimp only
  split <;> exact ⟨State.sameBytes_of rfl rfl, ⟨rfl, rfl, rfl⟩, rfl⟩

end

/-- An instruction of mode `AM_REL8` that means `jumpRelative` is the relative jump of R151 on its condition. -/
theorem jrResult_of_jumpRelative {i : Instr} {op e8 : Byte} {cc : Cond} {s : State} (henc : Laws.Encoding.Statement i)
    (hwf : i.wf = true) (hmode : (itab i.opcode).mode = .rel8) (hencode : encode i = [op, e8])
    (hexec : exec i s = .next (jumpRelative op cc e8 s)) : JrResult i op e8 (condHolds cc s.regs.f) s := by
  obtain ⟨hbytes, hcontrol, hcycles⟩ := jumpRelative_frame op cc e8 s
  exact ⟨hencode, _, hexec, jumpRelative_regs op cc e8 s, hbytes, hcontrol, hcycles,
    faultsOfFetchOnly henc hwf (by simp [hmode]) s⟩

/-- Settles O19: the four conditions are `condHolds` of the four forms. -/
theorem jumpRelativeOnCondition : Obligations.JumpRelativeOnCondition := by
  intro e8 s
  exact ⟨jrResult_of_jumpRelative (cc := .nz) (Laws.Encoding.jrNz e8) rfl rfl rfl (exec_jrNz e8 s),
    jrResult_of_jumpRelative (cc := .z) (Laws.Encoding.jrZ e8) rfl rfl rfl (exec_jrZ e8 s),
    jrResult_of_jumpRelative (cc := .nc) (Laws.Encoding.jrNc e8) rfl rfl rfl (exec_jrNc e8 s),
    jrResult_of_jumpRelative (cc := .c) (Laws.Encoding.jrC e8) rfl rfl rfl (exec_jrC e8 s)⟩

/-! ### The absolute jump -/

theorem itab_mode_jpA16 (a16 : Word) : (itab (Instr.jpA16 a16).opcode).mode = .d16 := rfl

section
variable (op : Byte) (a16 target : Word) (s : State)

theorem resolveAddr16_jumpTo_regs : ((resolveAddr16 a16 (s.begin op)).jumpTo target).regs = s.regs.setPc target := by
  simp [resolveAddr16]

theorem resolveAddr16_jumpTo_frame : SameBytes s ((resolveAddr16 a16 (s.begin op)).jumpTo target) ∧
    SameControl s ((resolveAddr16 a16 (s.begin op)).jumpTo target) ∧
    ((resolveAddr16 a16 (s.begin op)).jumpTo target).cycles = tally 2 s := by
  refine ⟨State.sameBytes_of ?_ ?_, ⟨?_, ?_, ?_⟩, ?_⟩ <;> simp [resolveAddr16, tally, tally_two]

end

/-- Settles O18: the two operand bytes are passed, and PC is then overwritten by the target. -/
theorem jumpAbsoluteSetsPc : Obligations.JumpAbsoluteSetsPc := by
  intro a16 s
  obtain ⟨hbytes, hcontrol, hcycles⟩ := resolveAddr16_jumpTo_frame 0xC3 a16 a16 s
  exact ⟨rfl, _, exec_jpA16 a16 s, resolveAddr16_jumpTo_regs 0xC3 a16 a16 s, hbytes, hcontrol, hcycles,
    faultsOfFetchOnly (Laws.Encoding.jpA16 a16) rfl (by simp [itab_mode_jpA16]) s⟩

/-! ### Descriptors without a handler -/

theorem enginePhaseExecute_jp {d : Descriptor} (hk : d.kind = .jp) (s : State) : enginePhaseExecute d s = engineJp d s := by
  simp only [enginePhaseExecute, hk]

/-- The handlers of `JP` are the absolute jump under `ALWAYS` and the relative jump under the four flag conditions (R152). -/
theorem engineJp_unhandled {d : Descriptor} (habs : ¬ (d.mode = .d16 ∧ d.cond = some .always))
    (hrel : ¬ (d.mode = .rel8 ∧ ∃ cc, cc ≠ .always ∧ d.cond = some cc)) (s : State) :
    engineJp d s = Phase.fail (.unimplementedCombination .jp) s := by
  unfold engineJp
  split
  next hmode hcond => exact absurd ⟨hmode, hcond⟩ habs
  next hmode hcond => exact absurd ⟨hmode, .nz, by decide, hcond⟩ hrel
  next hmode hcond => exact absurd ⟨hmode, .z, by decide, hcond⟩ hrel
  next hmode hcond => exact absurd ⟨hmode, .nc, by decide, hcond⟩ hrel
  next hmode hcond => exact absurd ⟨hmode, .c, by decide, hcond⟩ hrel
  next => rfl

/-- Settles O55: outside its five handlers the kind `JP` fails. -/
theorem otherJumpDescriptorsRaise : Obligations.OtherJumpDescriptorsRaise := by
  intro d s hkind habs hrel
  exact (enginePhaseExecute_jp hkind s).trans (engineJp_unhandled habs hrel s)

end Sys2Proof.Machine
end

section
/-! PROOFS. Fatal errors and the halted core (60_exceptions.md R162, R170, R176): when a step emits a trace record, and how a core
comes to be halted and stays so. -/

namespace Sys2Proof.Machine

open Sys2Proof.Slice0

/-! ### The trace record -/

theorem itab_kind_ne_invalid {op : Byte} (h : isInvalidOpcode op = false) : (itab op).kind ≠ .invalid := by
  cases hrow : tableRow op with
  | none =>
    have hlisted : isInvalidOpcode op = true := (tableRow_none_iff op).1 hrow
    exact absurd hlisted (Bool.eq_false_iff.mp h)
  | some row =>
    obtain ⟨-, -, -, hkind⟩ := tableRow_some hrow 0 0
    rwa [itab_of_row hrow]

theorem traceRecord_of_halted {s : State} (h : s.halted = true) : traceRecord s = none := by
  simp [traceRecord, h]

theorem traceRecord_of_unreadable {s : State} (h : readable s.cfg s.regs.pc = false) : traceRecord s = none := by
  have hread := (State.readByte_error_iff s s.regs.pc _).mpr ⟨h, rfl⟩
  simp [traceRecord, hread]

/-- Settles O41: the table's rows are the opcodes that are not INVALID, and a row's kind is never INVALID. -/
theorem traceRecordOfDecodedInstruction : Obligations.TraceRecordOfDecodedInstruction := by
  refine ⟨fun s => traceRecord_of_halted, fun s hs => ⟨traceRecord_of_unreadable, fun op hop => ?_⟩⟩
  cases hinv : isInvalidOpcode op with
  | true => exact traceRecord_of_invalid hinv hop
  | false => exact traceRecord_of_populated hs hop (itab_kind_ne_invalid hinv)

/-! ### The halted core -/

theorem run_of_halted {s : State} (h : s.halted = true) (k : Nat) : Sys2Proof.core.run k s = .next s := by
  induction k with
  | zero => exact run_zero s
  | succ k ih =>
    rw [run_succ, step_halted h]
    exact ih

theorem stepReturns_of_halted {s : State} (h : s.halted = true) : stepReturns s = false := by
  simp [stepReturns, h]

theorem FetchUndone.raised {s t : State} (h : FetchUndone s t) : ∃ c op, Raised c op s t := by
  obtain ⟨k, now, -, -, rfl, hcfg, hfault, -⟩ := h
  exact ⟨_, _, raise_raised _ _ s now hcfg hfault⟩

theorem Undone.raised {i : Instr} {s t : State} (h : Undone i s t) : ∃ c op, Raised c op s t := by
  obtain ⟨c, now, rfl, hcfg, hfault, -, -⟩ := h
  exact ⟨c, some i.opcode, raise_raised c _ s now hcfg hfault⟩

/-- The step of a running core is a fatal error (R162), or an instruction that completes. -/
theorem step_raised_or_completes {s t : State} (hrun : s.halted = false) (hstep : step s = .next t) :
    (∃ c op, Raised c op s t) ∨ ∃ i, Completes i s t := by
  obtain ⟨hhalted, -⟩ | ⟨-, -, hundone | ⟨i, -, -, hexec⟩⟩ := step_cases hstep
  · exact absurd hhalted (Bool.eq_false_iff.mp hrun)
  · exact .inl hundone.raised
  · obtain ⟨t', hexec', hcases⟩ := exec_cases i s
    obtain rfl : t = t' := Host.Outcome.next.inj (hexec.symm.trans hexec')
    exact hcases.symm.imp Undone.raised fun hcompletes => ⟨i, hcompletes⟩

/-- Settles O2: a halted step is the identity, over any number of steps, and an instruction that completes keeps the core
running. -/
theorem haltedCoreStaysAsItIs : Obligations.HaltedCoreStaysAsItIs := by
  constructor
  · intro s h
    exact ⟨step_halted h, traceRecord_of_halted h, stepReturns_of_halted h, run_of_halted h⟩
  · intro s t hrun hstep hhalted
    obtain hraised | ⟨i, hcompletes⟩ := step_raised_or_completes hrun hstep
    · exact hraised
    · have hkept : t.halted = false := hcompletes.halted.trans hrun
      exact absurd hhalted (Bool.eq_false_iff.mp hkept)

end Sys2Proof.Machine
end

section
/-! PROOFS. Decoding and encoding (30_encoding.md R64 to R66, R71): what `decode` answers at each length of the bytes after the
opcode, and that every well-formed instruction is assembled again from its own operand bytes. -/

namespace Sys2Proof.Machine

/-! ### What the table says of every instruction -/

/-- The encoding law of every instruction, from the law of its family. -/
theorem encoding_statement (i : Instr) : Laws.Encoding.Statement i := by
  induction i using Instr.by_family with
  | nop => exact Laws.Encoding.nop
  | dec r => exact encoding_decOf r
  | xor r => exact encoding_xorOf r
  | ld dst src => exact (hasRow_ldOf dst src).encoding
  | ldImm dst d8 => exact (hasRow_ldImmOf dst d8).encoding
  | ldPair rr d16 => exact (hasRow_ldPairOf rr d16).encoding
  | stHl r => exact (hasRow_ldIndHlOf r).encoding
  | stBc => exact hasRow_ldIndBcA.encoding
  | stDe => exact hasRow_ldIndDeA.encoding
  | stInc => exact hasRow_ldHliA.encoding
  | stDec => exact hasRow_ldHldA.encoding
  | hlSp e8 => exact Laws.Encoding.ldHlSpE8 e8
  | jp a16 => exact Laws.Encoding.jpA16 a16
  | jrNz e8 => exact Laws.Encoding.jrNz e8
  | jrZ e8 => exact Laws.Encoding.jrZ e8
  | jrNc e8 => exact Laws.Encoding.jrNc e8
  | jrC e8 => exact Laws.Encoding.jrC e8
  | invalid op => exact Laws.Encoding.invalid op

theorem length_operands {i : Instr} (hwf : i.wf = true) : i.operands.length = (itab i.opcode).mode.operandBytes := by
  obtain ⟨hlength, -, -⟩ := encoding_statement i hwf
  exact hlength

/-- Settles O49: the operand bytes are those of the mode, and no mode has more than two. -/
theorem lengthFollowsTheMode : Obligations.LengthFollowsTheMode := by
  intro i hwf
  have hlength : i.length = 1 + (itab i.opcode).mode.operandBytes := by rw [Instr.length, length_operands hwf]
  have hmode := operandBytes_le_two (itab i.opcode).mode
  exact ⟨Nat.add_comm _ 1, hlength, by omega, by omega⟩

/-- Settles O48: the rows of the table are the opcodes R64 does not list, and none of them has the kind INVALID. -/
theorem invalidOpcodesAreTheListed164 : Obligations.InvalidOpcodesAreTheListed164 := by
  refine ⟨fun op => ⟨fun hkind => ?_, fun hinv => ?_⟩, fun op => itab_of_invalid, by decide +kernel⟩
  · by_contra hlisted
    exact itab_kind_ne_invalid (Bool.eq_false_iff.mpr hlisted) hkind
  · rw [itab_of_invalid hinv]
    rfl

/-! ### What decoding answers -/

/-- With the operand bytes of its mode after it, an opcode decodes, and the bytes after those are left. -/
theorem decode_append {op : Byte} {ops : List Byte} (hlength : ops.length = (itab op).mode.operandBytes) (rest : List Byte) :
    decode (op :: (ops ++ rest)) = .ok (assemble op (ops.getD 0 0) (ops.getD 1 0), rest) := by
  have hmode := operandBytes_le_two (itab op).mode
  match ops with
  | [] => simp [decode, ← hlength]
  | [b1] => simp [decode, ← hlength]
  | [b1, b2] => simp [decode, ← hlength]
  | _ :: _ :: _ :: _ => simp only [List.length_cons] at hlength; omega

/-- With fewer bytes after it, an opcode is refused. -/
theorem decode_missing {op : Byte} {rest : List Byte} (h : rest.length < (itab op).mode.operandBytes) :
    decode (op :: rest) = .error (.missingOperand op) := by
  have hmode := operandBytes_le_two (itab op).mode
  generalize hn : (itab op).mode.operandBytes = n at h hmode
  match n, rest with
  | 1, [] => simp only [decode, hn]
  | 2, [] => simp only [decode, hn]
  | 2, [_] => simp only [decode, hn]
  | 1, _ :: _ | 2, _ :: _ :: _ => simp only [List.length_cons] at h; omega

/-- The converse: whatever decodes is an opcode, the operand bytes of its mode, and the rest. -/
theorem decode_ok_inv {bytes rest : List Byte} {i : Instr} (h : decode bytes = .ok (i, rest)) :
    ∃ op ops, bytes = op :: (ops ++ rest) ∧ ops.length = (itab op).mode.operandBytes ∧
      i = assemble op (ops.getD 0 0) (ops.getD 1 0) := by
  cases bytes with
  | nil => cases h
  | cons op tail =>
    obtain hfew | henough := Nat.lt_or_ge tail.length (itab op).mode.operandBytes
    · rw [decode_missing hfew] at h
      cases h
    · have hlength := List.length_take_of_le henough
      have hdecode := decode_append hlength (tail.drop (itab op).mode.operandBytes)
      rw [List.take_append_drop, h] at hdecode
      cases hdecode
      exact ⟨op, _, by rw [List.take_append_drop], hlength, rfl⟩

/-- Settles O46: the bytes of an instruction are its opcode and the operand bytes of its mode, from which it is assembled. -/
theorem decodeOfEncodeIsTheInstruction : Obligations.DecodeOfEncodeIsTheInstruction := by
  intro i rest hwf
  have hdecode := decode_append (length_operands hwf) rest
  rwa [assemble_operands (encoding_statement i) hwf] at hdecode

/-- An assembled instruction has the opcode and the operand bytes it was assembled from. -/
theorem encode_assemble {op : Byte} {ops : List Byte} (hlength : ops.length = (itab op).mode.operandBytes) :
    encode (assemble op (ops.getD 0 0) (ops.getD 1 0)) = op :: ops := by
  obtain ⟨hop, hops, -⟩ := assemble_spec op (ops.getD 0 0) (ops.getD 1 0)
  have hmode := operandBytes_le_two (itab op).mode
  rw [encode, hop, hops, ← hlength]
  match ops with
  | [] | [_] | [_, _] => rfl
  | _ :: _ :: _ :: _ => simp only [List.length_cons] at hlength; omega

theorem encode_of_decode {bytes rest : List Byte} {i : Instr} (h : decode bytes = .ok (i, rest)) :
    i.wf = true ∧ encode i ++ rest = bytes := by
  obtain ⟨op, ops, rfl, hlength, rfl⟩ := decode_ok_inv h
  obtain ⟨-, -, hwf⟩ := assemble_spec op (ops.getD 0 0) (ops.getD 1 0)
  exact ⟨hwf, by rw [encode_assemble hlength, List.cons_append]⟩

theorem decode_of_le {op : Byte} {rest : List Byte} (h : (itab op).mode.operandBytes ≤ rest.length) :
    ∃ i, decode (op :: rest) = .ok (i, rest.drop (itab op).mode.operandBytes) := by
  have hdecode := decode_append (List.length_take_of_le h) (rest.drop (itab op).mode.operandBytes)
  rw [List.take_append_drop] at hdecode
  exact ⟨_, hdecode⟩

/-- Settles O47: the opcode's mode says how many bytes it needs, which is two at most; there decoding inverts `encode`. -/
theorem encodeOfDecodeIsTheBytes : Obligations.EncodeOfDecodeIsTheBytes := by
  refine ⟨fun bytes rest i => encode_of_decode, fun bytes hlength => ?_, rfl, fun op rest => ⟨decode_of_le, decode_missing⟩⟩
  cases bytes with
  | nil => simp at hlength
  | cons op rest =>
    have hmode := operandBytes_le_two (itab op).mode
    obtain ⟨i, hdecode⟩ := decode_of_le (op := op) (rest := rest) (by rw [List.length_cons] at hlength; omega)
    exact ⟨i, _, hdecode⟩

/-- Settles O50: each word is computed through the table. -/
theorem encodedWordsDecode : Obligations.EncodedWordsDecode :=
  ⟨rfl, rfl, rfl, rfl, rfl, rfl, rfl, rfl, rfl, rfl, rfl, rfl, rfl⟩

end Sys2Proof.Machine
end

section
/-! PROOFS. What a step can do, said once (40_engine.md R80 to R83; 60_exceptions.md R162, R163): a halted core stays, a running
one is undone by a fatal error of fetch or of its instruction, or completes. The whole-machine rules are read off it. -/

namespace Sys2Proof.Machine

open Sys2Proof.Slice0

/-! ### The fetch -/

theorem itab_mode_eq_hlSpr {op : Byte} (h : (itab op).mode = .hlSpr) : op = 0xF8 :=
  forall_byte (P := fun op => (itab op).mode = .hlSpr → op = 0xF8) (by decide +kernel) op h

/-- The one instruction of the mode `AM_HL_SPR`. -/
theorem eq_ldHlSpE8_of_mode {i : Instr} (hwf : i.wf = true) (hmode : (itab i.opcode).mode = .hlSpr) :
    ∃ e8, i = .ldHlSpE8 e8 := by
  have hi := assemble_operands (encoding_statement i) hwf
  rw [itab_mode_eq_hlSpr hmode] at hi
  exact ⟨_, hi.symm⟩

/-- Settles O1: the bytes that decode to `i` are those of `i`, and the fetch finds them; of `LD HL,SP+e8` it reads the opcode
alone, and its meaning does not depend on the byte. -/
theorem stepRunsDecodedInstruction : Obligations.StepRunsDecodedInstruction := by
  intro s i bytes rest hs hdecode hbytes
  obtain ⟨hwf, rfl⟩ := encode_of_decode hdecode
  have hi : BytesAtPc (encode i) s := fun k b hk =>
    hbytes k b (by rw [List.getElem?_append_left (List.getElem?_eq_some_iff.mp hk).1, hk])
  by_cases hmode : (itab i.opcode).mode = .hlSpr
  · obtain ⟨e8, rfl⟩ := eq_ldHlSpE8_of_mode hwf hmode
    exact step_of_fetchCount_zero hs hi.head rfl
  · exact step_eq_exec_of_bytesAtPc (encoding_statement i) hwf hmode hs hi

/-- Settles O4: the fetch of the opcode byte raises before anything is counted. -/
theorem unreadableOpcodeRaises : Obligations.UnreadableOpcodeRaises := by
  intro s hs hr
  have hstep : step s = .next (raise (.unimplemented (.unmappedRead s.regs.pc)) none s s.clearLatches) := by
    rw [step_running hs.1 hs.2, fetchInstr_of_unreadable_opcode hr]
  exact ⟨_, hstep, raise_raised _ none s s.clearLatches rfl rfl, rfl⟩

/-- After the opcode and some of its operand bytes the next one cannot be read (R96, R165). -/
theorem step_of_unreadable_operand {s : State} {op : Byte} {bs : List Byte} (hs : Running s) (h : BytesAtPc (op :: bs) s)
    (hmode : (itab op).mode ≠ .hlSpr) (hlt : bs.length < (itab op).mode.operandBytes)
    (hr : readable s.cfg (byteAddress s (bs.length + 1)) = false) :
    ∃ t, step s = .next t ∧
      Raised (.unimplemented (.unmappedRead (byteAddress s (bs.length + 1)))) (some op) s t := by
  have hread := (State.readByte_error_iff s _ _).mpr ⟨hr, rfl⟩
  obtain ⟨now, hstop, hcfg, hfault⟩ := fetchOperands_stopped (h.tail_begin op) hlt (by simpa using hread)
  have hfetch : fetchInstr s =
      .raised (raise (.unimplemented (.unmappedRead (byteAddress s (bs.length + 1)))) (some op) s now) := by
    simp only [fetchInstr, h.head, fetchCount_eq_operandBytes hmode, hstop]
  exact ⟨_, by rw [step_running hs.1 hs.2, hfetch], raise_raised _ _ s now hcfg hfault⟩

theorem bytesAtPc_cons {b : Byte} {bs : List Byte} {s : State} (hb : s.readByte s.regs.pc = .ok b)
    (hbs : BytesAtPc bs s.passOperand) : BytesAtPc (b :: bs) s := by
  intro k c hk
  cases k with
  | zero => cases hk; simpa using hb
  | succ k => simpa using hbs k c hk

/-- Settles O5: no operand byte is read before the first unreadable one, or one is. -/
theorem unreadableOperandRaises : Obligations.UnreadableOperandRaises := by
  intro s op hs hop hmode
  constructor
  · intro hlt hr
    exact step_of_unreadable_operand hs (bytesAtPc_singleton hop) hmode hlt hr
  · intro hlt hfirst hr
    have hread := (State.readByte_ok_iff s (s.regs.pc + 1) _).mpr ⟨hfirst, rfl⟩
    exact step_of_unreadable_operand hs (bytesAtPc_cons hop (bytesAtPc_singleton hread)) hmode hlt hr

/-! ### The outcomes of a step -/

/-- The fatal errors the default table reaches (R163): one of the fetch, or one of the instruction at PC. -/
inductive StepCause (s : State) : Cause → Prop where
  | fetch (k : Nat) : k ≤ 2 → readable s.cfg (s.regs.pc + BitVec.ofNat 16 k) = false →
      StepCause s (.unimplemented (.unmappedRead (s.regs.pc + BitVec.ofNat 16 k)))
  | exec {i : Instr} {c : Cause} : s.readByte s.regs.pc = .ok i.opcode → i.wf = true → RaisesCause i s c → StepCause s c

/-- A step from `s` that its fatal error has undone, with what R162 records and what it keeps. -/
def StepUndone (s t : State) : Prop :=
  ∃ c now, StepCause s c ∧ t = raise c (s.readByte s.regs.pc).toOption s now ∧ now.cfg = s.cfg ∧ now.fault = s.fault ∧
    (s.cfg.countCycles = false → now.cycles = s.cycles)

theorem FetchUndone.stepUndone {s t : State} (h : FetchUndone s t) : StepUndone s t := by
  obtain ⟨k, now, hk, hr, ht, hcfg, hfault, hcycles⟩ := h
  exact ⟨_, now, .fetch k hk hr, ht, hcfg, hfault, hcycles⟩

theorem Undone.stepUndone {i : Instr} {s t : State} (h : Undone i s t) (hop : s.readByte s.regs.pc = .ok i.opcode)
    (hwf : i.wf = true) : StepUndone s t := by
  obtain ⟨c, now, ht, hcfg, hfault, hcycles, hcause⟩ := h
  exact ⟨c, now, .exec hop hwf hcause, by rw [ht, hop]; rfl, hcfg, hfault, fun _ => hcycles⟩

/-- `exec_cases` for a next state that is known. -/
theorem completes_or_undone {i : Instr} {s t : State} (h : exec i s = .next t) : Completes i s t ∨ Undone i s t := by
  obtain ⟨t', hexec, hcases⟩ := exec_cases i s
  obtain rfl : t = t' := Host.Outcome.next.inj (h.symm.trans hexec)
  exact hcases

/-- The inversion of `step`: the core was halted, or it ran and the step was undone or completed. -/
theorem step_outcome {s t : State} (h : step s = .next t) :
    (s.halted = true ∧ t = s) ∨ (s.halted = false ∧ (StepUndone s t ∨ ∃ i, Completes i s t)) := by
  obtain hhalted | ⟨hrun, -, hundone | ⟨i, hop, hwf, hexec⟩⟩ := step_cases h
  · exact .inl hhalted
  · exact .inr ⟨hrun, .inl hundone.stepUndone⟩
  · obtain hcompletes | hundone := completes_or_undone hexec
    · exact .inr ⟨hrun, .inr ⟨i, hcompletes⟩⟩
    · exact .inr ⟨hrun, .inl (hundone.stepUndone hop hwf)⟩

/-- The same for a core known to be running. -/
theorem step_outcome_running {s t : State} (hrun : s.halted = false) (h : step s = .next t) :
    StepUndone s t ∨ ∃ i, Completes i s t := by
  obtain ⟨hhalted, -⟩ | ⟨-, houtcome⟩ := step_outcome h
  · exact absurd hhalted (Bool.eq_false_iff.mp hrun)
  · exact houtcome

section
variable {s t : State} (h : StepUndone s t)
include h

theorem StepUndone.regs : t.regs = s.regs := by
  obtain ⟨c, now, -, rfl, -⟩ := h
  rfl

theorem StepUndone.mem : t.mem = s.mem := by
  obtain ⟨c, now, -, rfl, -⟩ := h
  rfl

theorem StepUndone.cfg : t.cfg = s.cfg := by
  obtain ⟨c, now, -, rfl, hcfg, -⟩ := h
  exact hcfg

theorem StepUndone.halted : t.halted = true := by
  obtain ⟨c, now, -, rfl, -⟩ := h
  rfl

/-- The record of before is kept; where there was none it names the cause, PC and the opcode byte, if that could be read. -/
theorem StepUndone.fault : ∃ c, StepCause s c ∧
    t.fault = some (s.fault.getD ⟨c, s.regs.pc, (s.readByte s.regs.pc).toOption⟩) := by
  obtain ⟨c, now, hcause, rfl, -, hfault, -⟩ := h
  exact ⟨c, hcause, by rw [raise_fault, hfault]⟩

theorem StepUndone.cycles (hcount : s.cfg.countCycles = false) : t.cycles = s.cycles := by
  obtain ⟨c, now, -, rfl, -, -, hcycles⟩ := h
  exact hcycles hcount

theorem StepUndone.sameBytes : SameBytes s t := State.sameBytes_of h.cfg h.mem

end

theorem Completes.wf_mem {i : Instr} {s t : State} (h : Completes i s t) (hwf : s.mem.wf = true) : t.mem.wf = true := by
  obtain ⟨-, hmem⟩ | ⟨a, v, -, -, -, hmem⟩ := h.mem
  · rwa [hmem]
  · rw [hmem]
    exact Memory.wf_insert s.mem a v hwf

/-- An instruction that completes changes the byte it stores at most, which lies in the window. -/
theorem Completes.readByte {i : Instr} {s t : State} (h : Completes i s t) {x : Word}
    (hx : storeAddress i s ≠ some x ∨ region s.cfg x ≠ .ram) : t.readByte x = s.readByte x := by
  obtain ⟨-, hmem⟩ | ⟨a, v, haddr, -, hram, hmem⟩ := h.mem
  · exact State.readByte_congr h.cfg hmem x
  · have hne : x ≠ a := by
      rintro rfl
      exact hx.elim (absurd haddr) (absurd hram)
    have hread : t.readByte x = State.readByte { s with mem := s.mem.insert a.toNat v } x :=
      State.readByte_congr (s := { s with mem := s.mem.insert a.toNat v }) h.cfg hmem x
    rw [hread, State.readByte_stored_other s a x v hne]

/-! ### Totality -/

/-- Settles O3: the fetch gives an instruction, which answers by `exec_cases`, or the state after its fatal error. -/
theorem stepAnswersOnEveryLegalState : Obligations.StepAnswersOnEveryLegalState := by
  intro s
  constructor
  · intro hlegal
    cases hhalted : s.halted with
    | true => exact ⟨s, step_halted hhalted⟩
    | false =>
      rw [step_running hhalted hlegal]
      cases fetchInstr s with
      | raised t => exact ⟨t, rfl⟩
      | instr i =>
        obtain ⟨t, hexec, -⟩ := exec_cases i s
        exact ⟨t, hexec⟩
  · intro hhalted hlegal
    simp [step, hhalted, hlegal]

/-! ### What every step keeps -/

/-- Settles O30: an undone step leaves F, and `Completes` keeps its low nibble. -/
theorem lowNibbleOfFStaysZero : Obligations.LowNibbleOfFStaysZero := by
  intro s t hstep hlow
  obtain ⟨-, rfl⟩ | ⟨-, hundone | ⟨i, hcompletes⟩⟩ := step_outcome hstep
  · exact hlow
  · rwa [hundone.regs]
  · rw [hcompletes.lowNibble, hlow]

theorem step_keeps_cfg {s t : State} (hstep : step s = .next t) : t.cfg = s.cfg := by
  obtain ⟨-, rfl⟩ | ⟨-, hundone | ⟨i, hcompletes⟩⟩ := step_outcome hstep
  · rfl
  · exact hundone.cfg
  · exact hcompletes.cfg

/-- Settles O34: a byte a step stores lies in the window, which is no part of the ROM region. -/
theorem stepKeepsParametersAndRom : Obligations.StepKeepsParametersAndRom := by
  intro s t hstep
  refine ⟨step_keeps_cfg hstep, fun a hrom => ?_⟩
  obtain ⟨-, rfl⟩ | ⟨-, hundone | ⟨i, hcompletes⟩⟩ := step_outcome hstep
  · rfl
  · exact hundone.sameBytes a
  · exact hcompletes.readByte (.inr (by simp [hrom]))

theorem legal_iff (s : State) : s.legal = true ↔ s.regs.f &&& 0x0F = 0 ∧ s.cfg.wf = true := by
  simp [State.legal]

theorem step_keeps_legal {s t : State} (hstep : step s = .next t) (h : s.legal = true) : t.legal = true := by
  obtain ⟨hlow, hcfg⟩ := (legal_iff s).mp h
  exact (legal_iff t).mpr ⟨lowNibbleOfFStaysZero s t hstep hlow, by rwa [step_keeps_cfg hstep]⟩

/-- Settles O43: legality is kept part by part; the rest is read off the two outcomes of a running core's step. -/
theorem everyStepKeepsTheInvariant : Obligations.EveryStepKeepsTheInvariant := by
  rintro s t ⟨hlegal, hmem, hrecord, htally⟩ hstep
  refine ⟨step_keeps_legal hstep hlegal, ?_⟩
  obtain ⟨-, rfl⟩ | ⟨-, hundone | ⟨i, hcompletes⟩⟩ := step_outcome hstep
  · exact ⟨hmem, hrecord, htally⟩
  · obtain ⟨c, -, hfault⟩ := hundone.fault
    refine ⟨by rwa [hundone.mem], by rw [hundone.halted, hfault]; rfl, fun hcount => ?_⟩
    rw [hundone.cfg] at hcount
    rw [hundone.cycles hcount, htally hcount]
  · refine ⟨hcompletes.wf_mem hmem, by rw [hcompletes.halted, hcompletes.fault, hrecord], fun hcount => ?_⟩
    rw [hcompletes.cfg] at hcount
    simp [hcompletes.cycles, hcount, htally hcount]

/-- Settles O44: each part is computed on the reset state. -/
theorem resetMeetsTheInvariant : Obligations.ResetMeetsTheInvariant :=
  ⟨rfl, State.reset_mem_wf, rfl, fun _ => rfl⟩

/-! ### Fatal errors -/

/-- Settles O37: a fatal error keeps the record it finds, and an instruction that completes writes none. -/
theorem faultRecordIsWrittenOnce : Obligations.FaultRecordIsWrittenOnce := by
  intro s t hstep
  obtain ⟨hhalted, rfl⟩ | ⟨hrun, hundone | ⟨i, hcompletes⟩⟩ := step_outcome hstep
  · exact ⟨id, fun r => id, fun hrun => absurd hhalted (Bool.eq_false_iff.mp hrun)⟩
  · obtain ⟨c, -, hfault⟩ := hundone.fault
    refine ⟨fun _ => hundone.halted, fun r hr => by rw [hfault, hr]; rfl, fun _ _ => ?_⟩
    simp [hundone.halted, hfault]
  · refine ⟨fun h => hcompletes.halted.trans h, fun r hr => hcompletes.fault.trans hr, fun _ hnone => ?_⟩
    simp [hcompletes.halted, hcompletes.fault, hrun, hnone]

/-- A step that halts a running core is undone. -/
theorem stepUndone_of_halts {s t : State} (hrun : s.halted = false) (hstep : step s = .next t) (hhalted : t.halted = true) :
    StepUndone s t := by
  obtain hundone | ⟨i, hcompletes⟩ := step_outcome_running hrun hstep
  · exact hundone
  · rw [hcompletes.halted, hrun] at hhalted
    cases hhalted

/-- Settles O35: only an undone step halts a running core, and R162 says what it leaves. -/
theorem fatalErrorsArePrecise : Obligations.FatalErrorsArePrecise := by
  intro s t hrun hnone hstep hhalted
  have hundone := stepUndone_of_halts hrun hstep hhalted
  obtain ⟨c, -, hfault⟩ := hundone.fault
  rw [hnone] at hfault
  exact ⟨hundone.regs, hundone.sameBytes, hundone.cfg, _, hfault, rfl, rfl⟩

/-- Settles O36: the causes of `StepCause`, those of an instruction named by its form. -/
theorem reachableCausesOfTheDefaultTable : Obligations.ReachableCausesOfTheDefaultTable := by
  intro s t r hrun hnone hstep hr
  obtain hundone | ⟨i, hcompletes⟩ := step_outcome_running hrun hstep
  · obtain ⟨c, hcause, hfault⟩ := hundone.fault
    rw [hnone, hr] at hfault
    obtain rfl := Option.some.inj hfault
    cases hcause with
    | fetch k hk hread => exact .inr (.inl ⟨k, hk, rfl, hread⟩)
    | @exec i c hop hwf hraises =>
      have hopcode : (s.readByte s.regs.pc).toOption = some i.opcode := by rw [hop]; rfl
      cases hraises with
      | unknownOpcode op hi =>
        subst hi
        exact .inl ⟨rfl, op, hopcode, hwf⟩
      | writeViolation a haddr hregion => exact .inr (.inr (.inl ⟨i, a, haddr, hopcode, hregion, rfl⟩))
      | unimplementedMode e8 hi =>
        subst hi
        exact .inr (.inr (.inr ⟨rfl, hopcode⟩))
  · rw [hcompletes.fault, hnone] at hr
    cases hr

/-! ### Runs -/

/-- Settles O42: where the loop leaves off early the core is halted, and a run of it changes nothing more. -/
theorem interpreterLoopIsRepeatedSteps : Obligations.InterpreterLoopIsRepeatedSteps := by
  intro k
  induction k with
  | zero => exact fun s => (run_zero s).symm
  | succ k ih =>
    intro s
    rw [interpret_succ, run_succ]
    cases step s with
    | fault r => rfl
    | refused r => rfl
    | next t =>
      cases hhalted : t.halted with
      | true => exact (if_neg (by simp [stepReturns, hhalted])).trans (run_of_halted hhalted k).symm
      | false => exact (if_pos (by simp [stepReturns, hhalted])).trans (ih t)

end Sys2Proof.Machine
end

section
/-! PROOFS. What an instruction does to the registers, the memory and the tally, whatever it is: the register rules are
one structure, proved family by family (10_state.md R12, R16; 44_jp_jr.md R153), the others are read off `exec_cases`. -/

namespace Sys2Proof.Machine

open Sys2Proof.Slice0

/-! ### The 16-bit helpers -/

theorem State.readWord_error_first {s : State} {a : Word} {c : Cause} (h : s.readByte a = .error c) :
    s.readWord a = .error c := by
  simp only [State.readWord, h]

theorem State.readWord_error_second {s : State} {a : Word} {lo : Byte} {c : Cause} (hlo : s.readByte a = .ok lo)
    (h : s.readByte (a + 1) = .error c) : s.readWord a = .error c := by
  simp only [State.readWord, hlo, h]

theorem State.writeWord_not_ram_first {s : State} {a : Word} (h : region s.cfg (a + 1) ≠ .ram) (v : Word) :
    s.writeWord a v = .error (.unimplemented (.writeViolation (a + 1))) := by
  simp only [State.writeWord, State.writeByte_not_ram h]

theorem State.writeWord_not_ram_second {s : State} {a : Word} (ha1 : region s.cfg (a + 1) = .ram)
    (h : region s.cfg a ≠ .ram) (v : Word) : s.writeWord a v = .error (.unimplemented (.writeViolation a)) := by
  have h' : region ({ s with mem := s.mem.insert (a + 1).toNat (hiByte v) } : State).cfg a ≠ .ram := h
  rw [State.writeWord, State.writeByte_ram ha1]
  exact State.writeByte_not_ram h' (loByte v)

/-- Settles O29: one law for each order in which the two accesses answer; the second store leaves the first one's byte. -/
theorem wordHelpersArePairsOfBytes : Obligations.WordHelpersArePairsOfBytes := by
  intro s a v
  refine ⟨fun lo hi hlo hhi => State.readWord_ok hlo hhi, fun c => State.readWord_error_first,
    fun lo c => State.readWord_error_second, fun h => State.writeWord_not_ram_first h v,
    fun ha1 ha => State.writeWord_not_ram_second ha1 ha v, fun ha1 ha => ?_⟩
  obtain ⟨s1, t, hwrite, ⟨hhi, hother1⟩, ⟨hlo, hother⟩⟩ := State.writeWord_stored ha ha1 v
  have hkept : t.readByte (a + 1) = .ok (hiByte v) := (hother (a + 1) (by simp)).trans hhi
  exact ⟨t, hwrite, hlo, hkept, fun x hx hx1 => (hother x hx).trans (hother1 x hx1)⟩

/-! ### XOR A,A -/

/-- A zero result leaves Z alone of the flags (R121). -/
theorem xorFlags_zero {f : Byte} (h : f &&& 0x0F = 0) : xorFlags 0 f = 0x80 :=
  forall_byte (P := fun f => f &&& 0x0F = 0 → xorFlags 0 f = 0x80) (by decide +kernel) f h

/-- Settles O10: the result is `A ^ A`. -/
theorem xorSelfGivesZeroAndZeroFlag : Obligations.XorSelfGivesZeroAndZeroFlag := by
  intro s hlegal
  obtain ⟨hlow, -⟩ := (legal_iff s).mp hlegal
  have hzero : s.regs.a ^^^ s.regs.get .a = 0 := BitVec.xor_self
  refine ⟨_, (exec_xorOf .a s).trans (congrArg _ (xorReg_eq_aluResult _ .a s)), ?_⟩
  rw [hzero, xorFlags_zero hlow]
  rfl

/-! ### Registers -/

/-- The registers after `i`, completed or undone: only the jumps leave the sequence, only `DEC` and `XOR` write flags and no
form sets F.C, only `LD SP,d16` writes SP. -/
structure RegisterRules (i : Instr) (s t : State) : Prop where
  pc : t.halted = false → (∀ a, i ≠ .jpA16 a) → (∀ e, i ≠ .jrNz e ∧ i ≠ .jrZ e ∧ i ≠ .jrNc e ∧ i ≠ .jrC e) →
    t.regs.pc = s.regs.pc + BitVec.ofNat 16 i.length
  f : (∀ r, i ≠ Instr.decOf r ∧ i ≠ Instr.xorOf r) → t.regs.f = s.regs.f
  carry : flagC s.regs.f = false → flagC t.regs.f = false
  sp : (∀ d16, i ≠ .ldSpD16 d16) → t.regs.sp = s.regs.sp

/-- A fatal error leaves the registers. -/
theorem RegisterRules.of_raise {i : Instr} (c : Cause) (op : Option Byte) (s now : State) :
    RegisterRules i s (raise c op s now) :=
  ⟨nofun, fun _ => rfl, id, fun _ => rfl⟩

/-- A form that writes neither flags nor SP and goes on in sequence. -/
theorem RegisterRules.of_kept {i : Instr} {s t : State} (hpc : t.regs.pc = s.regs.pc + BitVec.ofNat 16 i.length)
    (hf : t.regs.f = s.regs.f) (hsp : t.regs.sp = s.regs.sp) : RegisterRules i s t :=
  ⟨fun _ _ _ => hpc, fun _ => hf, fun h => hf ▸ h, fun _ => hsp⟩

/-- `DEC` and `XOR`: new flags, F.C not set where it was clear. -/
theorem RegisterRules.of_alu {i : Instr} {s : State} {src dst : GReg} {v f : Byte} (hlength : i.length = 1)
    (hi : ∃ r, i = Instr.decOf r ∨ i = Instr.xorOf r) (hcarry : flagC s.regs.f = false → flagC f = false) :
    RegisterRules i s (aluResult i.opcode src dst v f s) := by
  obtain ⟨⟨-, hsp⟩, hpc, -⟩ := aluResult_frame i.opcode src dst v f s
  refine ⟨fun _ _ _ => by rw [hpc, hlength]; rfl, fun hno => ?_, hcarry, fun _ => hsp⟩
  obtain ⟨r, hi⟩ := hi
  exact absurd hi (not_or_intro (hno r).1 (hno r).2)

/-- The stores: the file with the operand resolved, or the old one. -/
theorem RegisterRules.of_storeFetched {i : Instr} {op : Byte} {s now : State} (hlength : i.length = 1)
    (hpc : now.regs.pc = s.regs.pc + 1) (hf : now.regs.f = s.regs.f) (hsp : now.regs.sp = s.regs.sp) :
    RegisterRules i s (storeFetched op s now) := by
  obtain ⟨-, e⟩ | ⟨-, e⟩ := storeFetched_cases op s now <;> rw [e]
  · exact .of_kept (by rw [hlength]; exact hpc) hf hsp
  · exact .of_raise _ _ s now

/-- A jump writes PC alone. -/
theorem RegisterRules.of_jump {i : Instr} {s t : State} {p : Word} (hregs : t.regs = s.regs.setPc p)
    (hi : (∃ a, i = .jpA16 a) ∨ ∃ e, i = .jrNz e ∨ i = .jrZ e ∨ i = .jrNc e ∨ i = .jrC e) : RegisterRules i s t := by
  have hf : t.regs.f = s.regs.f := by rw [hregs, RegFile.setPc_f]
  refine ⟨fun _ hjp hjr => ?_, fun _ => hf, fun h => hf ▸ h, fun _ => by rw [hregs, RegFile.setPc_sp]⟩
  obtain ⟨a, hi⟩ | ⟨e, hi⟩ := hi
  · exact absurd hi (hjp a)
  · obtain ⟨hnz, hz, hnc, hc⟩ := hjr e
    simp only [hnz, hz, hnc, hc, or_self] at hi

theorem exec_registerRules (i : Instr) (s : State) : ∃ t, exec i s = .next t ∧ RegisterRules i s t := by
  induction i using Instr.by_family with
  | nop => exact ⟨_, exec_nop s, .of_kept rfl rfl rfl⟩
  | dec r =>
    obtain ⟨-, -, -, hcarry, -⟩ := decFlags_spec (s.regs.get r) s.regs.f
    refine ⟨_, (exec_decOf r s).trans (congrArg _ (decReg_eq_aluResult _ r s)), ?_⟩
    exact .of_alu (by simp [Instr.length, operands_decOf]) ⟨r, .inl rfl⟩ fun h => hcarry.trans h
  | xor r =>
    obtain ⟨-, -, -, hcarry, -⟩ := xorFlags_spec (s.regs.a ^^^ s.regs.get r) s.regs.f
    refine ⟨_, (exec_xorOf r s).trans (congrArg _ (xorReg_eq_aluResult _ r s)), ?_⟩
    exact .of_alu (by simp [Instr.length, operands_xorOf]) ⟨r, .inr rfl⟩ fun _ => hcarry
  | ld dst src =>
    have hregs := loadReg_regs (Instr.ldOf dst src).opcode dst src s
    exact ⟨_, exec_ldOf dst src s, .of_kept (by simp [hregs, Instr.length, operands_ldOf]) (by simp [hregs]) (by simp [hregs])⟩
  | ldImm dst d8 =>
    have hregs := loadImm8_regs (Instr.ldImmOf dst d8).opcode dst d8 s
    exact ⟨_, exec_ldImmOf dst d8 s,
      .of_kept (by simp [hregs, Instr.length, operands_ldImmOf]) (by simp [hregs]) (by simp [hregs])⟩
  | ldPair rr d16 =>
    have hregs := loadImm16_regs (Instr.ldPairOf rr d16).opcode rr d16 s
    have hf : (loadImm16 (Instr.ldPairOf rr d16).opcode rr d16 s).regs.f = s.regs.f := by simp [hregs]
    refine ⟨_, exec_ldPairOf rr d16 s, fun _ _ _ => ?_, fun _ => hf, fun h => hf ▸ h, fun hi => ?_⟩
    · simp [hregs, Instr.length, operands_ldPairOf]
    · rw [hregs]
      cases rr with
      | sp => exact absurd rfl (hi d16)
      | bc | de | hl => rfl
  | stHl r =>
    exact ⟨_, exec_ldIndHlOf r s, .of_storeFetched (by simp [Instr.length, operands_ldIndHlOf]) rfl rfl rfl⟩
  | stBc => exact ⟨_, exec_ldIndBcA s, .of_storeFetched rfl rfl rfl rfl⟩
  | stDe => exact ⟨_, exec_ldIndDeA s, .of_storeFetched rfl rfl rfl rfl⟩
  | stInc => exact ⟨_, exec_ldHliA s, .of_storeFetched rfl rfl rfl rfl⟩
  | stDec => exact ⟨_, exec_ldHldA s, .of_storeFetched rfl rfl rfl rfl⟩
  | hlSp e8 => exact ⟨_, exec_ldHlSpE8 e8 s, .of_raise _ _ s _⟩
  | jp a16 => exact ⟨_, exec_jpA16 a16 s, .of_jump (resolveAddr16_jumpTo_regs 0xC3 a16 a16 s) (.inl ⟨a16, rfl⟩)⟩
  | jrNz e8 => exact ⟨_, exec_jrNz e8 s, .of_jump (jumpRelative_regs _ _ e8 s) (.inr ⟨e8, .inl rfl⟩)⟩
  | jrZ e8 => exact ⟨_, exec_jrZ e8 s, .of_jump (jumpRelative_regs _ _ e8 s) (.inr ⟨e8, .inr (.inl rfl)⟩)⟩
  | jrNc e8 => exact ⟨_, exec_jrNc e8 s, .of_jump (jumpRelative_regs _ _ e8 s) (.inr ⟨e8, .inr (.inr (.inl rfl))⟩)⟩
  | jrC e8 => exact ⟨_, exec_jrC e8 s, .of_jump (jumpRelative_regs _ _ e8 s) (.inr ⟨e8, .inr (.inr (.inr rfl))⟩)⟩
  | invalid op => exact ⟨_, exec_invalid op s, .of_raise _ _ s _⟩

/-- The rules for a next state that is known. -/
theorem registerRules_of_exec {i : Instr} {s t : State} (h : exec i s = .next t) : RegisterRules i s t := by
  obtain ⟨t', hexec, hrules⟩ := exec_registerRules i s
  obtain rfl : t = t' := Host.Outcome.next.inj (h.symm.trans hexec)
  exact hrules

/-- Settles O20: the rule for PC. -/
theorem onlyJumpsLeaveTheSequence : Obligations.OnlyJumpsLeaveTheSequence :=
  fun _ _ _ _ hexec hrun hjp hjr => (registerRules_of_exec hexec).pc hrun hjp hjr

/-- Settles O31: the rules for F and F.C. -/
theorem onlyDecAndXorWriteFlags : Obligations.OnlyDecAndXorWriteFlags :=
  fun _ _ _ hexec => ⟨(registerRules_of_exec hexec).f, (registerRules_of_exec hexec).carry⟩

/-- Settles O32: the rule for SP. -/
theorem onlyLoadSpWritesSp : Obligations.OnlyLoadSpWritesSp :=
  fun _ _ _ hexec => (registerRules_of_exec hexec).sp

/-! ### Memory and the tally -/

/-- Settles O33: an instruction that completes writes its store address alone, and one that is undone writes nothing. -/
theorem onlyTheStoredByteChanges : Obligations.OnlyTheStoredByteChanges := by
  intro i s t hexec x hx
  obtain hcompletes | hundone := completes_or_undone hexec
  · exact hcompletes.readByte (.inl hx)
  · obtain ⟨c, op, -, hbytes, -⟩ := hundone.raised
    exact hbytes x

/-- Settles O40: the tally of an instruction that completes; one that is undone ends halted. -/
theorem cyclesCountOperandBytes : Obligations.CyclesCountOperandBytes := by
  intro i s t _ hexec hrun
  obtain hcompletes | hundone := completes_or_undone hexec
  · exact hcompletes.cycles
  · obtain ⟨c, op, -, -, -, hhalted, -⟩ := hundone.raised
    exact absurd hhalted (Bool.eq_false_iff.mp hrun)

/-! ### A store over the next instruction -/

/-- Every storing form is a `StoreResult` that leaves PC one further. -/
theorem storeResult_of_storeAddress {i : Instr} {s : State} {a : Word} {v : Byte} (ha : storeAddress i s = some a)
    (hv : storeByte i s = some v) : ∃ x, x.pc = s.regs.pc + 1 ∧ StoreResult i i.opcode a v x s := by
  induction i using Instr.by_family with
  | stHl r =>
    rw [storeAddress_ldIndHlOf] at ha
    rw [storeByte_ldIndHlOf] at hv
    cases ha
    cases hv
    exact ⟨_, rfl, opcode_ldIndHlOf r ▸ storeThroughHl r s⟩
  | stBc =>
    cases ha
    cases hv
    obtain ⟨hstore, -⟩ := storeThroughBcAndDe s
    exact ⟨_, rfl, hstore⟩
  | stDe =>
    cases ha
    cases hv
    obtain ⟨-, hstore⟩ := storeThroughBcAndDe s
    exact ⟨_, rfl, hstore⟩
  | stInc =>
    cases ha
    cases hv
    obtain ⟨hstore, -⟩ := storeAndStepHl s
    exact ⟨_, rfl, hstore⟩
  | stDec =>
    cases ha
    cases hv
    obtain ⟨-, hstore⟩ := storeAndStepHl s
    exact ⟨_, rfl, hstore⟩
  | dec r => rw [storeAddress_decOf] at ha; cases ha
  | xor r => rw [storeAddress_xorOf] at ha; cases ha
  | ld dst src => rw [storeAddress_ldOf] at ha; cases ha
  | ldImm dst d8 => rw [storeAddress_ldImmOf] at ha; cases ha
  | ldPair rr d16 => rw [storeAddress_ldPairOf] at ha; cases ha
  | nop | hlSp | jp | jrNz | jrZ | jrNc | jrC | invalid => cases ha

/-- Settles O38: the store reads back at the PC it leaves; outside the window it ends halted. -/
theorem storeIsSeenByTheNextFetch : Obligations.StoreIsSeenByTheNextFetch := by
  intro i s v ha hv
  obtain ⟨x, hpc, -, -, hram, hout⟩ := storeResult_of_storeAddress ha hv
  have hstores : region s.cfg (s.regs.pc + 1) = .ram → ∃ t, exec i s = .next t ∧ t.halted = s.halted ∧
      t.regs.pc = s.regs.pc + 1 ∧ t.readByte t.regs.pc = .ok v := by
    intro hregion
    obtain ⟨t, hexec, rfl, ⟨hread, -⟩, ⟨-, hhalted, -⟩, -⟩ := hram hregion
    exact ⟨t, hexec, hhalted, hpc, by rwa [hpc]⟩
  refine ⟨hstores, fun t hexec _ hrun => ?_⟩
  by_cases hregion : region s.cfg (s.regs.pc + 1) = .ram
  · obtain ⟨t', hexec', -, -, hread⟩ := hstores hregion
    obtain rfl : t = t' := Host.Outcome.next.inj (hexec.symm.trans hexec')
    exact hread
  · obtain ⟨t', hexec', -, -, -, hhalted, -⟩ := hout hregion
    obtain rfl : t = t' := Host.Outcome.next.inj (hexec.symm.trans hexec')
    exact absurd hhalted (Bool.eq_false_iff.mp hrun)

/-! ### Latches -/

/-- A step's result with the latches dropped. -/
def forgetOutcome : Host.Outcome State Fault Refusal → Host.Outcome State Fault Refusal
  | .next t => .next t.forgetLatches
  | .fault r => .fault r
  | .refused r => .refused r

/-- The start of a step writes every latch before it is read, so what an instruction does is the same but for the opcode
latches an undecoded opcode leaves as they were (R26). -/
theorem exec_forgetLatches (i : Instr) (s : State) :
    forgetOutcome (exec i s.forgetLatches) = forgetOutcome (exec i s) := by
  cases i <;> rfl

/-- The fetch past the opcode byte starts from written latches as well. -/
theorem fetchInstr_forgetLatches {s : State} {op : Byte} (h : s.readByte s.regs.pc = .ok op) :
    fetchInstr s.forgetLatches = fetchInstr s := by
  have h' : s.forgetLatches.readByte s.forgetLatches.regs.pc = .ok op := h
  have hbegin : s.forgetLatches.begin op = s.begin op := rfl
  simp only [fetchInstr, h, h', hbegin]
  cases fetchOperands (fetchCount (itab op).mode) (s.begin op) with
  | bytes bs => rfl
  | stopped c now => rfl

theorem step_forgetLatches (s : State) : forgetOutcome (step s.forgetLatches) = forgetOutcome (step s) := by
  cases hhalted : s.halted with
  | true =>
    rw [step_halted hhalted, step_halted (s := s.forgetLatches) hhalted]
    rfl
  | false =>
    cases hlegal : s.legal with
    | false =>
      obtain ⟨-, hrefused⟩ := stepAnswersOnEveryLegalState s
      obtain ⟨-, hrefused'⟩ := stepAnswersOnEveryLegalState s.forgetLatches
      rw [hrefused hhalted hlegal, hrefused' hhalted hlegal]
    | true =>
      rw [step_running hhalted hlegal, step_running (s := s.forgetLatches) hhalted hlegal]
      cases hop : s.readByte s.regs.pc with
      | error c =>
        obtain ⟨hr, -⟩ := (State.readByte_error_iff _ _ _).mp hop
        rw [fetchInstr_of_unreadable_opcode hr, fetchInstr_of_unreadable_opcode (s := s.forgetLatches) hr]
        rfl
      | ok op =>
        rw [fetchInstr_forgetLatches hop]
        cases fetchInstr s with
        | raised t => rfl
        | instr i => exact exec_forgetLatches i s

/-- Settles O39: both steps are that of the state without latches, but for latches. -/
theorem latchesDoNotInfluenceTheStep : Obligations.LatchesDoNotInfluenceTheStep := by
  intro s t h
  have hstep : forgetOutcome (step s) = forgetOutcome (step t) := by
    rw [← step_forgetLatches s, h, step_forgetLatches t]
  refine ⟨fun s' hs => ?_, fun r hs => ?_, nofun⟩
  · rw [hs] at hstep
    cases ht : step t with
    | next t' =>
      rw [ht] at hstep
      exact ⟨t', rfl, Host.Outcome.next.inj hstep⟩
    | fault r => exact nomatch r
    | refused r => rw [ht] at hstep; cases hstep
  · rw [hs] at hstep
    cases ht : step t with
    | next t' => rw [ht] at hstep; cases hstep
    | fault r => exact nomatch r
    | refused r' => rw [ht] at hstep; cases hstep; rfl

end Sys2Proof.Machine
end

section
/-! PROOFS. The engine over any Instruction Table (40_engine.md R80 to R98): what each phase keeps, where operand resolution ends,
and what a step comes to when a phase raises. -/

namespace Sys2Proof.Machine

open Sys2Proof.Slice0

/-! ### The phases of a step -/

/-- The state a phase ends in, done or raised. -/
def Phase.state : Phase → State
  | .done t => t
  | .raised _ _ now => now

/-- What a step that began in `start` leaves when its phases end in `p`: a raise is undone (R162). -/
def Phase.settle (start : State) : Phase → State
  | .done t => t
  | .raised c op now => raise c op start now

/-- Goes on from a phase that is done. -/
def Phase.bind (p : Phase) (k : State → Phase) : Phase :=
  match p with
  | .done t => k t
  | .raised c op now => .raised c op now

/-- The state fetch leaves over the table `tab`, the opcode byte read (R82). -/
def engineBegin (tab : Byte → Descriptor) (op : Byte) (s : State) : State := s.clearLatches.latchOpcode op (tab op)

@[simp] theorem engineBegin_curInst (tab : Byte → Descriptor) (op : Byte) (s : State) :
    (engineBegin tab op s).curInst = tab op := rfl

theorem engineStep_halted {tab : Byte → Descriptor} {s : State} (h : s.halted = true) : engineStep tab s = s := by
  simp [engineStep, h]

theorem engineStep_running {tab : Byte → Descriptor} {s : State} (h : s.halted = false) :
    engineStep tab s = (enginePhases tab s).settle s := by
  simp only [engineStep, h, Bool.false_eq_true, if_false]
  cases enginePhases tab s <;> rfl

theorem enginePhases_unreadable {tab : Byte → Descriptor} {s : State} {c : Cause} (h : s.readByte s.regs.pc = .error c) :
    enginePhases tab s = .raised c none s.clearLatches := by
  have h' : s.clearLatches.readByte s.clearLatches.regs.pc = .error c := h
  simp only [enginePhases, enginePhaseFetch, h']

theorem enginePhases_invalid {tab : Byte → Descriptor} {s : State} {op : Byte} (h : s.readByte s.regs.pc = .ok op)
    (hkind : (tab op).kind = .invalid) : enginePhases tab s = .raised .unknownOpcode (some op) s.clearLatches := by
  have h' : s.clearLatches.readByte s.clearLatches.regs.pc = .ok op := h
  simp only [enginePhases, enginePhaseFetch, h', hkind, if_true]

theorem enginePhases_populated {tab : Byte → Descriptor} {s : State} {op : Byte} (h : s.readByte s.regs.pc = .ok op)
    (hkind : (tab op).kind ≠ .invalid) :
    enginePhases tab s =
      (enginePhaseResolve (tab op) (engineBegin tab op s)).bind fun t => enginePhaseExecute t.curInst t := by
  have h' : s.clearLatches.readByte s.clearLatches.regs.pc = .ok op := h
  have hfetch : enginePhaseFetch tab s.clearLatches = .done (engineBegin tab op s) := by
    simp only [enginePhaseFetch, h', hkind, if_false, engineBegin]
  cases hresolve : enginePhaseResolve (tab op) (engineBegin tab op s) <;>
    simp only [enginePhases, hfetch, engineBegin_curInst, hresolve, Phase.bind]

theorem Phase.andThen_eq_done {α : Type} {x : Except Cause α} {s t : State} {k : α → Phase}
    (h : Phase.andThen x s k = .done t) : ∃ v, x = .ok v ∧ k v = .done t := by
  cases x with
  | error c => cases h
  | ok v => exact ⟨v, rfl, h⟩

/-! ### What resolution and execute keep -/

/-- What no phase after fetch changes: parameters, halted flag, record and opcode latches, and the low nibble of F where it is
zero (R14). -/
structure EngineKeeps (s t : State) : Prop where
  cfg : t.cfg = s.cfg
  halted : t.halted = s.halted
  fault : t.fault = s.fault
  curOpcode : t.curOpcode = s.curOpcode
  curInst : t.curInst = s.curInst
  lowNibble : s.regs.f &&& 0x0F = 0 → t.regs.f &&& 0x0F = 0

theorem EngineKeeps.refl (s : State) : EngineKeeps s s := ⟨rfl, rfl, rfl, rfl, rfl, id⟩

theorem EngineKeeps.trans {s t u : State} (h : EngineKeeps s t) (h' : EngineKeeps t u) : EngineKeeps s u :=
  ⟨h'.cfg.trans h.cfg, h'.halted.trans h.halted, h'.fault.trans h.fault, h'.curOpcode.trans h.curOpcode,
    h'.curInst.trans h.curInst, fun hlow => h'.lowNibble (h.lowNibble hlow)⟩

/-- Registers are replaced by a file whose F has a zero low nibble too. -/
theorem EngineKeeps.withRegs {s : State} {x : RegFile} (h : s.regs.f &&& 0x0F = 0 → x.f &&& 0x0F = 0) :
    EngineKeeps s (s.withRegs x) :=
  ⟨rfl, rfl, rfl, rfl, rfl, h⟩

theorem Phase.andThen_keeps {α : Type} {x : Except Cause α} {s : State} {k : α → Phase}
    (h : ∀ v, x = .ok v → EngineKeeps s (k v).state) : EngineKeeps s (Phase.andThen x s k).state := by
  cases x with
  | error c => exact .refl s
  | ok v => exact h v rfl

theorem fetchByte_eq_ok {s : State} {p : Byte × State} (h : fetchByte s = .ok p) :
    s.readByte s.regs.pc = .ok p.1 ∧ p.2 = s.passOperand := by
  unfold fetchByte at h
  split at h
  · cases h
  next b hb =>
    cases h
    exact ⟨hb, rfl⟩

theorem engineKeeps_passOperand (s : State) : EngineKeeps s s.passOperand := ⟨rfl, rfl, rfl, rfl, rfl, id⟩

theorem engineImm8_keeps (s : State) : EngineKeeps s (engineImm8 s).state := by
  refine Phase.andThen_keeps fun p hp => ?_
  obtain ⟨-, hnext⟩ := fetchByte_eq_ok hp
  rw [hnext]
  exact (engineKeeps_passOperand s).trans ⟨rfl, rfl, rfl, rfl, rfl, id⟩

theorem engineImm16_keeps (s : State) : EngineKeeps s (engineImm16 s).state := by
  refine Phase.andThen_keeps fun lo hlo => ?_
  obtain ⟨-, hnext⟩ := fetchByte_eq_ok hlo
  rw [hnext]
  refine (engineKeeps_passOperand s).trans (Phase.andThen_keeps fun hi hhi => ?_)
  obtain ⟨-, hlast⟩ := fetchByte_eq_ok hhi
  rw [hlast]
  exact (engineKeeps_passOperand s.passOperand).trans ⟨rfl, rfl, rfl, rfl, rfl, id⟩

theorem engineMemDest_keeps (ptr reg2 : RegName) (s : State) : EngineKeeps s (engineMemDest ptr reg2 s).state :=
  Phase.andThen_keeps fun _ _ => Phase.andThen_keeps fun _ _ => ⟨rfl, rfl, rfl, rfl, rfl, id⟩

theorem engineStepHl_keeps {s : State} {p : Phase} (delta : Word) (h : EngineKeeps s p.state) :
    EngineKeeps s (engineStepHl delta p).state := by
  cases p with
  | raised c op now => exact h
  | done t => exact h.trans (.withRegs fun hlow => by rwa [RegFile.putPair_f])

/-- Operand resolution keeps what `EngineKeeps` says, where it ends and where it raises. -/
theorem enginePhaseResolve_keeps (d : Descriptor) (s : State) : EngineKeeps s (enginePhaseResolve d s).state := by
  unfold enginePhaseResolve
  cases d.mode with
  | imp | hlSpr => exact .refl s
  | r | rR => exact Phase.andThen_keeps fun _ _ => ⟨rfl, rfl, rfl, rfl, rfl, id⟩
  | rD8 | rel8 => exact engineImm8_keeps s
  | rD16 | d16 => exact engineImm16_keeps s
  | mrR => exact engineMemDest_keeps d.reg1 d.reg2 s
  | hliR => exact engineStepHl_keeps 1 (engineMemDest_keeps .hl d.reg2 s)
  | hldR => exact engineStepHl_keeps (-1) (engineMemDest_keeps .hl d.reg2 s)

theorem keeps_of_resolve_done {d : Descriptor} {s t : State} (h : enginePhaseResolve d s = .done t) : EngineKeeps s t := by
  have hkeeps := enginePhaseResolve_keeps d s
  rw [h] at hkeeps
  exact hkeeps

theorem maskF_lowNibble (v : Byte) : maskF v &&& 0x0F = 0 :=
  forall_byte (P := fun v => maskF v &&& 0x0F = 0) (by decide +kernel) v

/-- Writing a register by name keeps the low nibble of F at zero: `F` and `AF` are masked (R21). -/
theorem writeReg_lowNibble {x y : RegFile} {r : RegName} {v : Word} (h : writeReg x r v = .ok y)
    (hx : x.f &&& 0x0F = 0) : y.f &&& 0x0F = 0 := by
  cases r with
  | f | af => cases h; exact maskF_lowNibble _
  | a | b | c | d | e | h | l | bc | de | hl | sp | pc => cases h; exact hx
  | noReg => cases h

theorem engineDec_keeps (d : Descriptor) (s : State) : EngineKeeps s (engineDec d s).state := by
  unfold engineDec
  split
  · refine Phase.andThen_keeps fun x hx => .withRegs fun hlow => ?_
    obtain ⟨-, -, -, -, hkept⟩ := decFlags_spec (loByte s.fetched) x.f
    exact hkept.trans (writeReg_lowNibble hx hlow)
  · exact .refl s

theorem engineXor_keeps (d : Descriptor) (s : State) : EngineKeeps s (engineXor d s).state := by
  unfold engineXor
  split
  · refine Phase.andThen_keeps fun x hx => .withRegs fun hlow => ?_
    obtain ⟨-, -, -, -, hkept⟩ := xorFlags_spec (s.regs.a ^^^ loByte s.fetched) x.f
    exact hkept.trans (writeReg_lowNibble hx hlow)
  · exact .refl s

theorem writeByte_keeps {s t : State} {a : Word} {v : Byte} (h : s.writeByte a v = .ok t) : EngineKeeps s t := by
  obtain ⟨-, e⟩ | ⟨-, e⟩ := State.writeByte_cases s a v <;> rw [e] at h <;> cases h
  exact ⟨rfl, rfl, rfl, rfl, rfl, id⟩

theorem writeWord_keeps {s t : State} {a v : Word} (h : s.writeWord a v = .ok t) : EngineKeeps s t := by
  unfold State.writeWord at h
  split at h
  · cases h
  next s1 hfirst => exact (writeByte_keeps hfirst).trans (writeByte_keeps h)

theorem engineStore_keeps (d : Descriptor) (s : State) : EngineKeeps s (engineStore d s).state := by
  refine Phase.andThen_keeps fun t ht => ?_
  split at ht
  · exact writeWord_keeps ht
  · exact writeByte_keeps ht

theorem engineLoad_keeps (d : Descriptor) (s : State) : EngineKeeps s (engineLoad d s).state :=
  Phase.andThen_keeps fun _ hx => .withRegs (writeReg_lowNibble hx)

theorem engineLd_keeps (d : Descriptor) (s : State) : EngineKeeps s (engineLd d s).state := by
  unfold engineLd
  cases d.mode with
  | hlSpr | imp | r | d16 | rel8 => exact .refl s
  | rR | rD8 | rD16 | mrR | hliR | hldR =>
    dsimp only
    split
    · exact engineStore_keeps d s
    · exact engineLoad_keeps d s

theorem engineKeeps_jumpTo (s : State) (target : Word) : EngineKeeps s (s.jumpTo target) := ⟨rfl, rfl, rfl, rfl, rfl, id⟩

theorem engineJr_keeps (cc : Cond) (s : State) : EngineKeeps s (engineJr cc s).state := by
  simp only [engineJr, Phase.state]
  split
  · exact engineKeeps_jumpTo s _
  · exact .refl s

theorem engineJp_keeps (d : Descriptor) (s : State) : EngineKeeps s (engineJp d s).state := by
  unfold engineJp
  split
  next => exact engineKeeps_jumpTo s s.fetched
  next => exact engineJr_keeps .nz s
  next => exact engineJr_keeps .z s
  next => exact engineJr_keeps .nc s
  next => exact engineJr_keeps .c s
  next => exact .refl s

/-- Execute keeps what `EngineKeeps` says, over any descriptor. -/
theorem enginePhaseExecute_keeps (d : Descriptor) (s : State) : EngineKeeps s (enginePhaseExecute d s).state := by
  unfold enginePhaseExecute
  cases d.kind with
  | nop | invalid | other => exact .refl s
  | dec => exact engineDec_keeps d s
  | xor => exact engineXor_keeps d s
  | ld => exact engineLd_keeps d s
  | jp => exact engineJp_keeps d s

/-! ### Precision over any table -/

/-- The phases of a step, fetch included, keep the parameters, the halted flag and the low nibble of F. -/
theorem enginePhases_keeps (tab : Byte → Descriptor) (s : State) :
    (enginePhases tab s).state.cfg = s.cfg ∧ (enginePhases tab s).state.halted = s.halted ∧
    (s.regs.f &&& 0x0F = 0 → (enginePhases tab s).state.regs.f &&& 0x0F = 0) := by
  cases hop : s.readByte s.regs.pc with
  | error c =>
    rw [enginePhases_unreadable hop]
    exact ⟨rfl, rfl, id⟩
  | ok op =>
    by_cases hkind : (tab op).kind = .invalid
    · rw [enginePhases_invalid hop hkind]
      exact ⟨rfl, rfl, id⟩
    · rw [enginePhases_populated hop hkind]
      cases hphase : enginePhaseResolve (tab op) (engineBegin tab op s) with
      | raised c o now =>
        have hkeeps := enginePhaseResolve_keeps (tab op) (engineBegin tab op s)
        rw [hphase] at hkeeps
        exact ⟨hkeeps.cfg, hkeeps.halted, hkeeps.lowNibble⟩
      | done t =>
        have hkeeps := (keeps_of_resolve_done hphase).trans (enginePhaseExecute_keeps t.curInst t)
        exact ⟨hkeeps.cfg, hkeeps.halted, hkeeps.lowNibble⟩

/-- Settles O58: phases that are done leave the core running, and a raise restores what R162 lists. -/
theorem engineIsPreciseOverAnyTable : Obligations.EngineIsPreciseOverAnyTable := by
  intro tab s
  refine ⟨engineStep_halted, fun hlow => ?_, fun hrun => ?_⟩
  · cases hhalted : s.halted with
    | true => rwa [engineStep_halted hhalted]
    | false =>
      obtain ⟨-, -, hkept⟩ := enginePhases_keeps tab s
      rw [engineStep_running hhalted]
      cases hphases : enginePhases tab s with
      | raised c op now => exact hlow
      | done t => rw [hphases] at hkept; exact hkept hlow
  · obtain ⟨hcfg, hkept, -⟩ := enginePhases_keeps tab s
    rw [engineStep_running hrun]
    cases hphases : enginePhases tab s with
    | raised c op now =>
      rw [hphases] at hcfg
      exact fun _ => ⟨rfl, State.sameBytes_of hcfg rfl, Option.some_ne_none _⟩
    | done t =>
      rw [hphases] at hkept
      exact fun hhalted => absurd hhalted (Bool.eq_false_iff.mp (hkept.trans hrun))

/-! ### Operand resolution -/

theorem engineImm8_done {s t : State} (h : engineImm8 s = .done t) : ∃ v, t = s.passOperand.latchFetched v := by
  obtain ⟨p, hp, hdone⟩ := Phase.andThen_eq_done h
  obtain ⟨-, hnext⟩ := fetchByte_eq_ok hp
  cases hdone
  exact ⟨_, by rw [hnext]⟩

theorem engineImm16_done {s t : State} (h : engineImm16 s = .done t) :
    ∃ v, t = s.passOperand.passOperand.latchFetched v := by
  obtain ⟨lo, hlo, hrest⟩ := Phase.andThen_eq_done h
  obtain ⟨hi, hhi, hdone⟩ := Phase.andThen_eq_done hrest
  obtain ⟨-, hnext⟩ := fetchByte_eq_ok hlo
  obtain ⟨-, hlast⟩ := fetchByte_eq_ok hhi
  cases hdone
  exact ⟨_, by rw [hlast, hnext]⟩

theorem engineMemDest_done {ptr reg2 : RegName} {s t : State} (h : engineMemDest ptr reg2 s = .done t) :
    ∃ v a, readReg s.regs ptr = .ok a ∧ t = (s.latchFetched v).latchDest a := by
  obtain ⟨v, -, hrest⟩ := Phase.andThen_eq_done h
  obtain ⟨a, ha, hdone⟩ := Phase.andThen_eq_done hrest
  cases hdone
  exact ⟨v, a, ha, rfl⟩

theorem engineStepHl_of_done (delta : Word) {p : Phase} {t : State} (h : p = .done t) :
    engineStepHl delta p = .done (t.withRegs (t.regs.putPair .hl (t.regs.getPair .hl + delta))) := by
  rw [h]
  rfl

theorem engineStepHl_done {delta : Word} {reg2 : RegName} {s t : State}
    (h : engineStepHl delta (engineMemDest .hl reg2 s) = .done t) :
    t.mem = s.mem ∧ t.memDest = s.regs.getPair .hl ∧ t.regs = s.regs.putPair .hl (s.regs.getPair .hl + delta) := by
  cases hphase : engineMemDest .hl reg2 s with
  | raised c op now =>
    rw [hphase] at h
    cases h
  | done u =>
    obtain ⟨v, a, ha, rfl⟩ := engineMemDest_done hphase
    rw [hphase] at h
    cases h
    exact ⟨rfl, (Except.ok.inj ha).symm, rfl⟩

/-- The inversion of resolution: memory stays, and of the registers PC moves, or HL in the two auto-modify modes (R84). -/
theorem enginePhaseResolve_done {d : Descriptor} {s t : State} (h : enginePhaseResolve d s = .done t) :
    t.mem = s.mem ∧
    ((d.mode ≠ .hliR ∧ d.mode ≠ .hldR ∧ ∃ p, t.regs = s.regs.setPc p) ∨
     (d.mode = .hliR ∧ t.memDest = s.regs.getPair .hl ∧ t.regs = s.regs.putPair .hl (s.regs.getPair .hl + 1)) ∨
     (d.mode = .hldR ∧ t.memDest = s.regs.getPair .hl ∧ t.regs = s.regs.putPair .hl (s.regs.getPair .hl - 1))) := by
  unfold enginePhaseResolve at h
  cases hmode : d.mode with rw [hmode] at h
  | imp =>
    cases h
    exact ⟨rfl, .inl ⟨nofun, nofun, s.regs.pc, rfl⟩⟩
  | r | rR =>
    obtain ⟨v, -, hdone⟩ := Phase.andThen_eq_done h
    cases hdone
    exact ⟨rfl, .inl ⟨nofun, nofun, s.regs.pc, rfl⟩⟩
  | rD8 | rel8 =>
    obtain ⟨v, rfl⟩ := engineImm8_done h
    exact ⟨rfl, .inl ⟨nofun, nofun, _, rfl⟩⟩
  | rD16 | d16 =>
    obtain ⟨v, rfl⟩ := engineImm16_done h
    exact ⟨rfl, .inl ⟨nofun, nofun, _, rfl⟩⟩
  | mrR =>
    obtain ⟨v, a, -, rfl⟩ := engineMemDest_done h
    exact ⟨rfl, .inl ⟨nofun, nofun, s.regs.pc, rfl⟩⟩
  | hliR =>
    obtain ⟨hmem, hdest, hregs⟩ := engineStepHl_done h
    exact ⟨hmem, .inr (.inl ⟨rfl, hdest, hregs⟩)⟩
  | hldR =>
    obtain ⟨hmem, hdest, hregs⟩ := engineStepHl_done h
    exact ⟨hmem, .inr (.inr ⟨rfl, hdest, by rw [hregs, BitVec.sub_eq_add_neg]⟩)⟩
  | hlSpr => cases h

theorem RegFile.putPair_hl_sp (x : RegFile) (v : Word) : (x.putPair .hl v).sp = x.sp := rfl

/-- Settles O52: the three ways resolution can end. -/
theorem resolutionTouchesNoMemoryAndNoFlag : Obligations.ResolutionTouchesNoMemoryAndNoFlag := by
  intro d s t h
  obtain ⟨hmem, ⟨hi, hd, p, hregs⟩ | ⟨hmode, hdest, hregs⟩ | ⟨hmode, hdest, hregs⟩⟩ := enginePhaseResolve_done h
  · exact ⟨hmem, by rw [hregs, RegFile.setPc_f], by rw [hregs, RegFile.setPc_sp],
      fun _ _ q => by rw [hregs, RegFile.get_setPc], fun h => absurd h hi, fun h => absurd h hd⟩
  · exact ⟨hmem, by rw [hregs, RegFile.putPair_f], by rw [hregs, RegFile.putPair_hl_sp],
      fun hne => absurd hmode hne, fun _ => ⟨hdest, hregs⟩, fun h => by simp [hmode] at h⟩
  · exact ⟨hmem, by rw [hregs, RegFile.putPair_f], by rw [hregs, RegFile.putPair_hl_sp],
      fun _ hne => absurd hmode hne, fun h => by simp [hmode] at h, fun _ => ⟨hdest, hregs⟩⟩

/-- Every name but `NONE` reads (R20). -/
theorem readReg_ok {r : RegName} (h : r ≠ .noReg) (x : RegFile) : ∃ v, readReg x r = .ok v := by
  cases r with
  | noReg => exact absurd rfl h
  | _ => exact ⟨_, rfl⟩

theorem Phase.andThen_readReg_noReg (x : RegFile) (s : State) (k : Word → Phase) :
    Phase.andThen (readReg x .noReg) s k = Phase.fail (.unsupportedRegister .noReg) s := rfl

/-- The source is read first; `NONE` as source or as pointer raises the same cause (R91). -/
theorem engineMemDest_noReg {ptr reg2 : RegName} (h : ptr = .noReg ∨ reg2 = .noReg) (s : State) :
    engineMemDest ptr reg2 s = Phase.fail (.unsupportedRegister .noReg) s := by
  by_cases hsource : reg2 = .noReg
  · rw [hsource]
    rfl
  · obtain rfl := h.resolve_right hsource
    obtain ⟨v, hv⟩ := readReg_ok hsource s.regs
    rw [engineMemDest, Phase.andThen_ok hv]
    rfl

theorem engineStepHl_fail (delta : Word) (sub : SubCause) (s : State) :
    engineStepHl delta (Phase.fail sub s) = Phase.fail sub s := rfl

/-- Settles O53: each of the five modes reads its registers through `readReg`, alone or through `engineMemDest`. -/
theorem resolvingNoRegisterRaises : Obligations.ResolvingNoRegisterRaises := by
  intro d s h
  change _ = Phase.fail (.unsupportedRegister .noReg) s
  obtain ⟨hmode | hmode, hreg⟩ | ⟨hmode | hmode | hmode | hmode, hreg⟩ := h <;>
    simp only [enginePhaseResolve, hmode, hreg, Phase.andThen_readReg_noReg, engineMemDest_noReg, engineStepHl_fail, true_or,
      or_true]

/-! ### Handlers -/

/-- Settles O54: `DEC` and `XOR` are handled in `AM_R` alone, `LD` in the modes of R98. -/
theorem modesOutsideTheListRaise : Obligations.ModesOutsideTheListRaise := by
  intro d s
  refine ⟨fun hkind hmode => ?_, fun hkind hmode => ?_, fun hkind hmode => ?_⟩
  · exact (enginePhaseExecute_dec hkind s).trans (engineDec_unhandled (fun h => hmode h.1) s)
  · exact (enginePhaseExecute_xor hkind s).trans (engineXor_unhandled (fun h => hmode h.1) s)
  · rw [enginePhaseExecute_ld hkind]
    obtain hmode | hmode | hmode | hmode := hmode <;> simp only [engineLd, hmode, Phase.fail]

/-- A kind outside the six has no handler (R97). -/
theorem enginePhaseExecute_other {d : Descriptor} {k : Nat} (h : d.kind = .other k) (s : State) :
    enginePhaseExecute d s = Phase.fail (.unimplementedKind (.other k)) s := by
  simp only [enginePhaseExecute, h]

theorem engineImm8_eq {s : State} {b : Byte} (h : s.readByte s.regs.pc = .ok b) :
    engineImm8 s = .done (resolveImm8 b s) := by
  simp only [engineImm8, fetchByte, h]
  rfl

theorem engineImm16_eq {s : State} {lo hi : Byte} (hlo : s.readByte s.regs.pc = .ok lo)
    (hhi : s.readByte (s.regs.pc + 1) = .ok hi) : engineImm16 s = .done (resolveImm16 (wordOf hi lo) s) := by
  have hhi' : s.passOperand.readByte s.passOperand.regs.pc = .ok hi := hhi
  simp only [engineImm16, fetchByte, hlo, hhi', Phase.andThen]
  rfl

theorem engineMemDest_ends {ptr reg2 : RegName} (hptr : ptr ≠ .noReg) (hreg2 : reg2 ≠ .noReg) (s : State) :
    ∃ t, engineMemDest ptr reg2 s = .done t := by
  obtain ⟨v, hv⟩ := readReg_ok hreg2 s.regs
  obtain ⟨a, ha⟩ := readReg_ok hptr s.regs
  exact ⟨_, by rw [engineMemDest, Phase.andThen_ok hv, Phase.andThen_ok ha]⟩

/-- Where `Resolves` says so, resolution after the fetch of the opcode ends. -/
theorem enginePhaseResolve_ends {d : Descriptor} {s : State} (h : Resolves d s) (op : Byte) (tab : Byte → Descriptor) :
    ∃ t, enginePhaseResolve d (engineBegin tab op s) = .done t := by
  have hfirst : readable s.cfg (byteAddress s 1) = true →
      (engineBegin tab op s).readByte (engineBegin tab op s).regs.pc = .ok (s.mem.byteAt (byteAddress s 1).toNat) :=
    fun hr => (State.readByte_ok_iff _ _ _).mpr ⟨hr, rfl⟩
  have hsecond : readable s.cfg (byteAddress s 2) = true →
      (engineBegin tab op s).readByte ((engineBegin tab op s).regs.pc + 1) =
        .ok (s.mem.byteAt (byteAddress s 2).toNat) := by
    have haddr : (engineBegin tab op s).regs.pc + 1 = byteAddress s 2 := add_one_add_ofNat s.regs.pc 1
    rw [haddr]
    exact fun hr => (State.readByte_ok_iff _ _ _).mpr ⟨hr, rfl⟩
  unfold Resolves at h
  unfold enginePhaseResolve
  cases hmode : d.mode with rw [hmode] at h
  | imp => exact ⟨_, rfl⟩
  | r | rR =>
    obtain ⟨v, hv⟩ := readReg_ok h (engineBegin tab op s).regs
    exact ⟨_, Phase.andThen_ok hv _ _⟩
  | rD8 | rel8 => exact ⟨_, engineImm8_eq (hfirst h)⟩
  | rD16 | d16 => exact ⟨_, engineImm16_eq (hfirst h.1) (hsecond h.2)⟩
  | mrR => exact engineMemDest_ends h.1 h.2 _
  | hliR | hldR =>
    obtain ⟨t, ht⟩ := engineMemDest_ends (ptr := .hl) nofun h (engineBegin tab op s)
    exact ⟨_, engineStepHl_of_done _ ht⟩
  | hlSpr => exact h.elim

/-- Settles O57: resolution ends with the descriptor still latched, and execute has no handler for its kind. -/
theorem unhandledKindRaises : Obligations.UnhandledKindRaises := by
  intro k
  refine ⟨fun d now hkind => enginePhaseExecute_other hkind now, fun tab s op hrun hop hkind hresolves => ?_⟩
  obtain ⟨t, ht⟩ := enginePhaseResolve_ends hresolves op tab
  have hkeeps := keeps_of_resolve_done ht
  have hinst : t.curInst = tab op := hkeeps.curInst
  have hopcode : t.curOpcode = op := hkeeps.curOpcode
  have hphases : enginePhases tab s = .raised (.unimplemented (.unimplementedKind (.other k))) (some op) t := by
    rw [enginePhases_populated hop (by simp [hkind]), ht, Phase.bind,
      enginePhaseExecute_other (hinst ▸ hkind), Phase.fail, hopcode]
  rw [engineStep_running hrun, hphases]
  exact raise_raised _ _ s t hkeeps.cfg hkeeps.fault

end Sys2Proof.Machine
end

section
/-! PROOFS. The engine on the default table is the step (40_engine.md R80 to R98): a descriptor's resolution and execute, written
over register names, are the operations the meanings of `exec` are written with. -/

namespace Sys2Proof

/-- The name a descriptor has for an operand register (R24). -/
def GReg.name : GReg → RegName
  | .b => .b
  | .c => .c
  | .d => .d
  | .e => .e
  | .h => .h
  | .l => .l
  | .a => .a

/-- The name a descriptor has for a pair or SP (R24). -/
def PairReg.name : PairReg → RegName
  | .bc => .bc
  | .de => .de
  | .hl => .hl
  | .sp => .sp

end Sys2Proof

namespace Sys2Proof.Machine

/-! ### Operand registers by name -/

@[simp] theorem readReg_name (x : RegFile) (r : GReg) : readReg x r.name = .ok (zext16 (x.get r)) := by cases r <;> rfl

@[simp] theorem writeReg_name (x : RegFile) (r : GReg) (v : Word) : writeReg x r.name v = .ok (x.put r (loByte v)) := by
  cases r <;> rfl

@[simp] theorem readReg_pairName (x : RegFile) (rr : PairReg) : readReg x rr.name = .ok (x.getPair rr) := by
  cases rr <;> rfl

@[simp] theorem writeReg_pairName (x : RegFile) (rr : PairReg) (v : Word) :
    writeReg x rr.name v = .ok (x.putPair rr v) := by
  cases rr <;> rfl

@[simp] theorem isReg8_name (r : GReg) : isReg8 r.name = true := by cases r <;> rfl

@[simp] theorem isReg16_name (r : GReg) : isReg16 r.name = false := by cases r <;> rfl

/-! ### The rows of the table -/

theorem itab_decOf (r : GReg) : ∃ m, itab (Instr.decOf r).opcode = ⟨.dec, m, .r, r.name, .noReg, none, none⟩ := by
  cases r <;> exact ⟨_, rfl⟩

theorem itab_xorOf (r : GReg) : ∃ m, itab (Instr.xorOf r).opcode = ⟨.xor, m, .r, r.name, .noReg, none, none⟩ := by
  cases r <;> exact ⟨_, rfl⟩

theorem itab_ldOf (dst src : GReg) :
    ∃ m, itab (Instr.ldOf dst src).opcode = ⟨.ld, m, .rR, dst.name, src.name, none, none⟩ := by
  cases dst <;> cases src <;> exact ⟨_, rfl⟩

theorem itab_ldImmOf (dst : GReg) (d8 : Byte) :
    ∃ m, itab (Instr.ldImmOf dst d8).opcode = ⟨.ld, m, .rD8, dst.name, .noReg, none, none⟩ := by
  cases dst <;> exact ⟨_, rfl⟩

theorem itab_ldPairOf (rr : PairReg) (d16 : Word) :
    ∃ m, itab (Instr.ldPairOf rr d16).opcode = ⟨.ld, m, .rD16, rr.name, .noReg, none, none⟩ := by
  cases rr <;> exact ⟨_, rfl⟩

theorem itab_ldIndHlOf (r : GReg) :
    ∃ m, itab (Instr.ldIndHlOf r).opcode = ⟨.ld, m, .mrR, PairReg.hl.name, r.name, none, none⟩ := by
  cases r <;> exact ⟨_, rfl⟩

/-! ### Resolution, mode by mode -/

section
variable {d : Descriptor} {r src : GReg} {ptr : PairReg} {s : State}

theorem enginePhaseResolve_reg (hmode : d.mode = .r) (hreg : d.reg1 = r.name) :
    enginePhaseResolve d s = .done (resolveReg r s) := by
  simp only [enginePhaseResolve, hmode, hreg, readReg_name, Phase.andThen, resolveReg]

theorem enginePhaseResolve_regReg (hmode : d.mode = .rR) (hreg : d.reg2 = src.name) :
    enginePhaseResolve d s = .done (resolveRegReg src s) := by
  simp only [enginePhaseResolve, hmode, hreg, readReg_name, Phase.andThen, resolveRegReg]

theorem engineMemDest_name (ptr : PairReg) (src : GReg) (s : State) :
    engineMemDest ptr.name src.name s = .done (resolveMemReg ptr src s) := by
  simp only [engineMemDest, readReg_name, readReg_pairName, Phase.andThen, resolveMemReg]

theorem enginePhaseResolve_memReg (hmode : d.mode = .mrR) (hptr : d.reg1 = ptr.name) (hsrc : d.reg2 = src.name) :
    enginePhaseResolve d s = .done (resolveMemReg ptr src s) := by
  simp only [enginePhaseResolve, hmode, hptr, hsrc, engineMemDest_name]

theorem enginePhaseResolve_hlInc (hmode : d.mode = .hliR) (hsrc : d.reg2 = src.name) :
    enginePhaseResolve d s = .done (resolveHlInc src s) := by
  have hdest := engineMemDest_name .hl src s
  simp only [enginePhaseResolve, hmode, hsrc]
  exact engineStepHl_of_done 1 hdest

/-- Adding -1 modulo 2^16 is one down (R93). -/
theorem enginePhaseResolve_hlDec (hmode : d.mode = .hldR) (hsrc : d.reg2 = src.name) :
    enginePhaseResolve d s = .done (resolveHlDec src s) := by
  have hdest := engineMemDest_name .hl src s
  simp only [enginePhaseResolve, hmode, hsrc, resolveHlDec, BitVec.sub_eq_add_neg]
  exact engineStepHl_of_done (-1) hdest

theorem enginePhaseResolve_imm8 {b : Byte} (hmode : d.mode = .rD8 ∨ d.mode = .rel8) (hb : s.readByte s.regs.pc = .ok b) :
    enginePhaseResolve d s = .done (resolveImm8 b s) := by
  obtain hmode | hmode := hmode <;> simp only [enginePhaseResolve, hmode, engineImm8_eq hb]

theorem enginePhaseResolve_imm16 {v : Word} (hmode : d.mode = .rD16 ∨ d.mode = .d16)
    (hlo : s.readByte s.regs.pc = .ok (loByte v)) (hhi : s.readByte (s.regs.pc + 1) = .ok (hiByte v)) :
    enginePhaseResolve d s = .done (resolveImm16 v s) := by
  obtain hmode | hmode := hmode <;>
    simp only [enginePhaseResolve, hmode, engineImm16_eq hlo hhi, wordOf_hiByte_loByte]

/-- A mode with operand bytes whose first one cannot be read. -/
theorem enginePhaseResolve_unreadable_first {c : Cause} (hcount : 1 ≤ fetchCount d.mode)
    (hc : s.readByte s.regs.pc = .error c) : enginePhaseResolve d s = .raised c (some s.curOpcode) s := by
  cases hmode : d.mode with rw [hmode] at hcount
  | rD8 | rel8 => simp only [enginePhaseResolve, hmode, engineImm8, fetchByte, hc, Phase.andThen]
  | rD16 | d16 => simp only [enginePhaseResolve, hmode, engineImm16, fetchByte, hc, Phase.andThen]
  | imp | r | rR | mrR | hliR | hldR | hlSpr => cases hcount

/-- A mode with two operand bytes whose second one cannot be read: the first is passed and counted (R96). -/
theorem enginePhaseResolve_unreadable_second {b : Byte} {c : Cause} (hcount : fetchCount d.mode = 2)
    (hb : s.readByte s.regs.pc = .ok b) (hc : s.readByte (s.regs.pc + 1) = .error c) :
    enginePhaseResolve d s = .raised c (some s.curOpcode) s.passOperand := by
  have hc' : s.passOperand.readByte s.passOperand.regs.pc = .error c := hc
  cases hmode : d.mode with rw [hmode] at hcount
  | rD16 | d16 =>
    simp only [enginePhaseResolve, hmode, engineImm16, fetchByte, hb, hc', Phase.andThen, State.passOperand_curOpcode]
  | imp | r | rR | rD8 | mrR | hliR | hldR | rel8 | hlSpr => cases hcount

/-! ### Execute, kind by kind -/

theorem engineDec_name (hmode : d.mode = .r) (hreg : d.reg1 = r.name) :
    engineDec d s = .done (s.withRegs
      ((s.regs.put r (loByte s.fetched - 1)).setF (decFlags (loByte s.fetched) s.regs.f))) := by
  simp [engineDec, hmode, hreg, Phase.andThen]

theorem engineXor_name (hmode : d.mode = .r) (hreg : d.reg1 = r.name) :
    engineXor d s = .done (s.withRegs ((s.regs.put .a (s.regs.a ^^^ loByte s.fetched)).setF
      (xorFlags (s.regs.a ^^^ loByte s.fetched) s.regs.f))) := by
  have hacc := writeReg_name s.regs .a (zext16 (s.regs.a ^^^ loByte s.fetched))
  rw [loByte_zext16] at hacc
  rw [engineXor, if_pos ⟨hmode, by rw [hreg, isReg8_name]⟩]
  exact (Phase.andThen_ok hacc s _).trans (by rw [RegFile.put_f])

theorem engineLd_reg (hmode : d.mode = .rR ∨ d.mode = .rD8) (hdest : s.destIsMem = false) (hreg : d.reg1 = r.name) :
    engineLd d s = .done (s.withRegs (s.regs.put r (loByte s.fetched))) := by
  rw [engineLd_handled (hmode.imp id .inl), if_neg (by simp [hdest]), engineLoad, hreg, writeReg_name, Phase.andThen]

theorem engineLd_pair (hmode : d.mode = .rD16) (hdest : s.destIsMem = false) (hreg : d.reg1 = ptr.name) :
    engineLd d s = .done (s.withRegs (s.regs.putPair ptr s.fetched)) := by
  rw [engineLd_handled (.inr (.inr (.inl hmode))), if_neg (by simp [hdest]), engineLoad, hreg, writeReg_pairName, Phase.andThen]

/-- The 8-bit store of the engine, undone where it raises, is `storeFetched`. -/
theorem engineLd_store {start : State} (hmode : d.mode = .mrR ∨ d.mode = .hliR ∨ d.mode = .hldR)
    (hdest : s.destIsMem = true) (hsrc : d.reg2 = src.name) :
    (engineLd d s).settle start = storeFetched s.curOpcode start s := by
  rw [engineLd_handled (.inr (.inr (.inr hmode))), if_pos hdest, engineStore_byte (by rw [hsrc, isReg16_name]),
    ← loByte_eq_setWidth, storeFetched]
  cases s.writeByte s.memDest (loByte s.fetched) <;> rfl

end

/-! ### The engine's step on the default table -/

theorem engineBegin_itab (op : Byte) (s : State) : engineBegin itab op s = s.begin op := rfl

/-- The opcode read and its operand resolved in `t`, execute gives the step. -/
theorem engineStep_of_resolved {s t : State} {op : Byte} (hrun : s.halted = false) (hop : s.readByte s.regs.pc = .ok op)
    (hkind : (itab op).kind ≠ .invalid) (hresolve : enginePhaseResolve (itab op) (s.begin op) = .done t) :
    engineStep itab s = (enginePhaseExecute (itab op) t).settle s := by
  have hinst : t.curInst = itab op := (keeps_of_resolve_done hresolve).curInst
  rw [engineStep_running hrun, enginePhases_populated hop hkind, engineBegin_itab, hresolve, Phase.bind, hinst]

/-- The same where resolution raises. -/
theorem engineStep_of_unresolved {s now : State} {op : Byte} {c : Cause} {o : Option Byte} (hrun : s.halted = false)
    (hop : s.readByte s.regs.pc = .ok op) (hkind : (itab op).kind ≠ .invalid)
    (hresolve : enginePhaseResolve (itab op) (s.begin op) = .raised c o now) : engineStep itab s = raise c o s now := by
  rw [engineStep_running hrun, enginePhases_populated hop hkind, engineBegin_itab, hresolve, Phase.bind, Phase.settle]

/-- An instruction and a descriptor agree in a step from `s` that resolves its operand in `t`. -/
theorem engineStep_eq {s t u : State} {op : Byte} {d : Descriptor} {p : Phase} (hrun : s.halted = false)
    (hop : s.readByte s.regs.pc = .ok op) (hd : itab op = d) (hkind : d.kind ≠ .invalid)
    (hresolve : enginePhaseResolve d (s.begin op) = .done t) (hexecute : enginePhaseExecute d t = p)
    (hsettle : p.settle s = u) : engineStep itab s = u := by
  subst hd
  rw [engineStep_of_resolved hrun hop hkind hresolve, hexecute, hsettle]

/-- The engine answers what `exec i` answers where the bytes of `i` stand at PC. -/
def EngineAgrees (i : Instr) : Prop :=
  ∀ s : State, s.halted = false → BytesAtPc (encode i) s → exec i s = .next (engineStep itab s)

/-- A store agrees once its resolution has latched the destination; the opcode the engine records is the one latched. -/
theorem engineAgrees_of_store {i : Instr} {d : Descriptor} {src : GReg} {now : State → State} (hd : itab i.opcode = d)
    (hkind : d.kind = .ld) (hmode : d.mode = .mrR ∨ d.mode = .hliR ∨ d.mode = .hldR) (hsrc : d.reg2 = src.name)
    (hresolve : ∀ s, enginePhaseResolve d (s.begin i.opcode) = .done (now s))
    (hlatched : ∀ s, (now s).destIsMem = true ∧ (now s).curOpcode = i.opcode)
    (hexec : ∀ s, exec i s = .next (storeFetched i.opcode s (now s))) : EngineAgrees i := by
  intro s hrun h
  obtain ⟨hdest, hopcode⟩ := hlatched s
  have hsettle := engineLd_store (start := s) hmode hdest hsrc
  rw [hopcode] at hsettle
  rw [hexec, engineStep_eq hrun h.head hd (by simp [hkind]) (hresolve s) (enginePhaseExecute_ld hkind _) hsettle]

/-- A relative jump agrees on each of its four conditions. -/
theorem engineAgrees_of_jr {i : Instr} {e8 : Byte} {m : String} {cc : Cond} (hcc : cc ≠ .always) (hops : i.operands = [e8])
    (hd : itab i.opcode = ⟨.jp, m, .rel8, .noReg, .noReg, some cc, none⟩)
    (hexec : ∀ s, exec i s = .next (jumpRelative i.opcode cc e8 s)) : EngineAgrees i := by
  intro s hrun h
  have hbyte := (hops ▸ h.tail_begin i.opcode).head
  have hexecute : ∀ t, enginePhaseExecute ⟨.jp, m, .rel8, .noReg, .noReg, some cc, none⟩ t = engineJr cc t := by
    intro t
    cases cc with
    | always => exact absurd rfl hcc
    | nz | z | nc | c => rfl
  rw [hexec, engineStep_eq hrun h.head hd nofun (enginePhaseResolve_imm8 (.inr rfl) hbyte) (hexecute _) rfl]
  rfl

/-- Every well-formed instruction agrees but `LD HL,SP+e8`, whose operand byte the engine does not fetch (R95). -/
theorem engineAgrees {i : Instr} (hwf : i.wf = true) (hmode : (itab i.opcode).mode ≠ .hlSpr) : EngineAgrees i := by
  induction i using Instr.by_family with
  | nop =>
    intro s hrun h
    rw [exec_nop, engineStep_eq (u := s.begin 0x00) hrun h.head rfl nofun rfl rfl rfl]
  | dec r =>
    intro s hrun h
    obtain ⟨m, hd⟩ := itab_decOf r
    rw [exec_decOf, engineStep_eq hrun h.head hd nofun (enginePhaseResolve_reg rfl rfl)
      ((enginePhaseExecute_dec rfl _).trans (engineDec_name rfl rfl)) rfl]
    rfl
  | xor r =>
    intro s hrun h
    obtain ⟨m, hd⟩ := itab_xorOf r
    rw [exec_xorOf, engineStep_eq hrun h.head hd nofun (enginePhaseResolve_reg rfl rfl)
      ((enginePhaseExecute_xor rfl _).trans (engineXor_name rfl rfl)) rfl]
    rfl
  | ld dst src =>
    intro s hrun h
    obtain ⟨m, hd⟩ := itab_ldOf dst src
    rw [exec_ldOf, engineStep_eq hrun h.head hd nofun (enginePhaseResolve_regReg rfl rfl)
      ((enginePhaseExecute_ld rfl _).trans (engineLd_reg (.inl rfl) rfl rfl)) rfl]
    rfl
  | ldImm dst d8 =>
    intro s hrun h
    obtain ⟨m, hd⟩ := itab_ldImmOf dst d8
    have hbyte := (operands_ldImmOf dst d8 ▸ h.tail_begin (Instr.ldImmOf dst d8).opcode).head
    rw [exec_ldImmOf, engineStep_eq hrun h.head hd nofun (enginePhaseResolve_imm8 (.inl rfl) hbyte)
      ((enginePhaseExecute_ld rfl _).trans (engineLd_reg (.inr rfl) rfl rfl)) rfl]
    rfl
  | ldPair rr d16 =>
    intro s hrun h
    obtain ⟨m, hd⟩ := itab_ldPairOf rr d16
    have hbytes := operands_ldPairOf rr d16 ▸ h.tail_begin (Instr.ldPairOf rr d16).opcode
    rw [exec_ldPairOf, engineStep_eq hrun h.head hd nofun
      (enginePhaseResolve_imm16 (.inl rfl) hbytes.head hbytes.tail_passOperand.head)
      ((enginePhaseExecute_ld rfl _).trans (engineLd_pair rfl rfl rfl)) rfl]
    rfl
  | stHl r =>
    obtain ⟨m, hd⟩ := itab_ldIndHlOf r
    exact engineAgrees_of_store hd rfl (.inl rfl) rfl (fun s => enginePhaseResolve_memReg rfl rfl rfl)
      (fun s => ⟨rfl, rfl⟩) (exec_ldIndHlOf r)
  | stBc =>
    exact engineAgrees_of_store (src := .a) rfl rfl (.inl rfl) rfl
      (fun s => enginePhaseResolve_memReg (ptr := .bc) rfl rfl rfl) (fun s => ⟨rfl, rfl⟩) exec_ldIndBcA
  | stDe =>
    exact engineAgrees_of_store (src := .a) rfl rfl (.inl rfl) rfl
      (fun s => enginePhaseResolve_memReg (ptr := .de) rfl rfl rfl) (fun s => ⟨rfl, rfl⟩) exec_ldIndDeA
  | stInc =>
    exact engineAgrees_of_store (src := .a) rfl rfl (.inr (.inl rfl)) rfl
      (fun s => enginePhaseResolve_hlInc rfl rfl) (fun s => ⟨rfl, rfl⟩) exec_ldHliA
  | stDec =>
    exact engineAgrees_of_store (src := .a) rfl rfl (.inr (.inr rfl)) rfl
      (fun s => enginePhaseResolve_hlDec rfl rfl) (fun s => ⟨rfl, rfl⟩) exec_ldHldA
  | hlSp e8 => exact absurd rfl hmode
  | jp a16 =>
    intro s hrun h
    have hbytes : BytesAtPc [loByte a16, hiByte a16] (s.begin 0xC3) := h.tail_begin 0xC3
    rw [exec_jpA16, engineStep_eq hrun h.head rfl nofun
      (enginePhaseResolve_imm16 (.inr rfl) hbytes.head hbytes.tail_passOperand.head) rfl rfl]
    rfl
  | jrNz e8 => exact engineAgrees_of_jr (cc := .nz) nofun rfl rfl (exec_jrNz e8)
  | jrZ e8 => exact engineAgrees_of_jr (cc := .z) nofun rfl rfl (exec_jrZ e8)
  | jrNc e8 => exact engineAgrees_of_jr (cc := .nc) nofun rfl rfl (exec_jrNc e8)
  | jrC e8 => exact engineAgrees_of_jr (cc := .c) nofun rfl rfl (exec_jrC e8)
  | invalid op =>
    intro s hrun h
    have hkind : (itab op).kind = .invalid := by rw [itab_of_invalid hwf]; rfl
    rw [exec_invalid, engineStep_running hrun, enginePhases_invalid h.head hkind, Phase.settle]
    rfl

/-- `LD HL,SP+e8` agrees on its opcode byte alone. -/
theorem engineStep_ldHlSpE8 {s : State} (e8 : Byte) (hrun : s.halted = false) (hop : s.readByte s.regs.pc = .ok 0xF8) :
    exec (.ldHlSpE8 e8) s = .next (engineStep itab s) := by
  rw [exec_ldHlSpE8, engineStep_of_unresolved hrun hop (by decide) rfl]
  rfl

/-- Operand bytes are fetched by populated opcodes only. -/
theorem itab_kind_of_fetchCount {op : Byte} (h : 1 ≤ fetchCount (itab op).mode) : (itab op).kind ≠ .invalid := by
  apply itab_kind_ne_invalid
  by_contra hinv
  rw [itab_of_invalid (by simpa using hinv)] at h
  cases h

/-- The engine agrees on an instruction that has been fetched whole. -/
theorem engineAgrees_assemble {s : State} {op : Byte} {ops : List Byte} (hrun : s.halted = false)
    (hbytes : BytesAtPc (op :: ops) s) (hlength : ops.length = fetchCount (itab op).mode) :
    exec (assemble op (ops.getD 0 0) (ops.getD 1 0)) s = .next (engineStep itab s) := by
  by_cases hmode : (itab op).mode = .hlSpr
  · obtain rfl := itab_mode_eq_hlSpr hmode
    exact engineStep_ldHlSpE8 _ hrun hbytes.head
  · rw [fetchCount_eq_operandBytes hmode] at hlength
    obtain ⟨hop, -, hwf⟩ := assemble_spec op (ops.getD 0 0) (ops.getD 1 0)
    exact engineAgrees hwf (by rwa [hop]) s hrun (by rwa [encode_assemble hlength])

/-- Settles O51: the five ways a fetch can go, each a raise of the engine's fetch or resolution, or an instruction on which
`exec` and the engine agree. -/
theorem stepIsTheEngineOnTheDefaultTable : Obligations.StepIsTheEngineOnTheDefaultTable := by
  intro s hlegal
  cases hrun : s.halted with
  | true => rw [step_halted hrun, engineStep_halted hrun]
  | false =>
    rw [step_running hrun hlegal]
    obtain ⟨c, hop, e⟩ | ⟨op, hop, hcases⟩ := fetchInstr_cases s
    · rw [e, engineStep_running hrun, enginePhases_unreadable hop, Phase.settle]
    · obtain ⟨hn, e⟩ | ⟨hn, b1, h1, e⟩ | ⟨hn, b1, b2, h1, h2, e⟩ | ⟨hn, c, h1, e⟩ | ⟨hn, b1, c, h1, h2, e⟩ := hcases <;>
        rw [e]
      · exact engineAgrees_assemble hrun (bytesAtPc_singleton hop) hn.symm
      · exact engineAgrees_assemble hrun (bytesAtPc_cons hop (bytesAtPc_singleton h1)) hn.symm
      · exact engineAgrees_assemble hrun
          (bytesAtPc_cons hop (bytesAtPc_cons (s := s.passOperand) h1 (bytesAtPc_singleton h2))) hn.symm
      · rw [engineStep_of_unresolved hrun hop (itab_kind_of_fetchCount hn)
          (enginePhaseResolve_unreadable_first (s := s.begin op) hn h1), State.begin_curOpcode]
      · rw [engineStep_of_unresolved hrun hop (itab_kind_of_fetchCount (by omega))
          (enginePhaseResolve_unreadable_second (s := s.begin op) hn h1 h2), State.begin_curOpcode]

end Sys2Proof.Machine
end
